-- ==== Sys2Proof/Word.lean ====
section
/-!
DEFINITION. The word types of the controller (spec/00_scope.md R10, R11; spec/30_encoding.md R56 to R59).

Registers, opcodes and status codes are bit vectors of the widths the spec fixes. An element is the exception: its width
`DW = 8 * EW` is a parameter of the instance (R7) and no command looks inside it, so it is held as the unsigned number
it stands for; that it is below `2 ^ DW` is part of well-formedness and of the state invariant (notes/assumptions/2.md).
-/
namespace Sys2Proof

/-- `capacity`, `writeCursor`, `readCursor`, `count`, and the `arg` field: 16-bit unsigned values (R10). -/
abbrev Reg16 := BitVec 16

/-- The `op` field, 4 bits (R57). -/
abbrev Opcode := BitVec 4

/-- A status code on the `status` field of the response word, 3 bits (R63, R115). -/
abbrev StatusCode := BitVec 3

/-- One stored unit, an opaque `DW`-bit value written as the unsigned number below `2 ^ DW` that it stands for (R7, R39). -/
abbrev Element := Nat

/-- The command ports (R53, R54): port F takes every command, port X only the indexed ones. -/
inductive Port where
  | f
  | x
  deriving DecidableEq, Repr

/-- The three fields of a command, as a port's three command buses carry them (R56). `wdata` is the level of a bus of
`DW` wires; the decoder keeps its low `DW` bits. -/
structure Command where
  op    : Opcode
  arg   : Reg16
  wdata : Element
  deriving DecidableEq, Repr

end Sys2Proof
end

