-- ==== Sys2Proof/Config.lean ====
section
/-!
DEFINITION. What an instance of the hardware fixes when it is built (spec/00_scope.md R7 to R9), and the free values:
the values the spec calls `unspecified` (R11: "an arbitrary value of the stated width chosen afresh each time").
-/
namespace Sys2Proof

/-- The parameters of one instance (R7, R8, R9). They are no state: no command and no reset changes them (R34). -/
structure Instance where
  /-- `EW`, bytes per element (R7). -/
  ew    : Nat
  /-- `DEPTH`, the slots the storage memory physically has (R8). -/
  depth : Nat
  /-- `XPORT`, whether port X and the arbiter are present (R9). -/
  xport : Bool
  deriving DecidableEq, Repr

/-- `DW = 8 * EW`, the element width in bits (R7). -/
def Instance.dw (c : Instance) : Nat := 8 * c.ew

/-- The ranges R7 and R8 give the parameters. -/
abbrev Instance.Wf (c : Instance) : Prop :=
  1 ≤ c.ew ∧ 1 ≤ c.depth ∧ c.depth ≤ 65535 ∧ c.depth * c.ew ≤ 65536

/-- The reference instance: `EW = 1`, `DEPTH = 65535`, `XPORT = 0` (R7, R8, R9). -/
def Instance.reference : Instance := { ew := 1, depth := 65535, xport := false }

/-- FREE VALUE. What a read finds in a slot not written since the last CREATE or reset (R31, R36;
spec/93_implementation_defined.md U2). -/
opaque Config.freeElement (dw : Nat) : Nat → BitVec dw

/-- FREE VALUE. The response data where a command produces no value, and on a port whose `rsp_valid` is 0 (R64, R138;
U1, U10). -/
opaque Config.freeData (dw : Nat) : Nat → BitVec dw

/-- FREE VALUE. The status pins of a port whose `rsp_valid` is 0 (R138; U10). -/
opaque Config.freeStatus : Nat → StatusCode

/-- FREE VALUE. `IncMod(c, n)` where the spec does not define it, `n = 0` or `c >= n` (R77); no reachable state asks for
it. -/
opaque Config.freeCursor : Nat → Reg16

/-- FREE VALUE. `count + 1` or `count - 1` where the result is no 16-bit value (R79, R81; U15); no reachable state asks
for it. -/
opaque Config.freeCount : Nat → Reg16

end Sys2Proof
end

