-- ==== Sys2Proof/Syntax.lean ====
section
/-!
DEFINITION. The commands: one constructor per row of spec/opcode_table.json (spec/30_encoding.md R60, R61, R70).
A field the row ignores is no operand (R62; spec/93_implementation_defined.md U8).
-/
namespace Sys2Proof

/-- The commands of port F (first nine) and of port X (last nine). -/
inductive Instr where
  /-- `0x0` NOP (R75). -/
  | nop
  /-- `0x1` CREATE `cap` (R72). -/
  | create (cap : Reg16)
  /-- `0x2` ENQUEUE `v` (R78). -/
  | enqueue (v : Element)
  /-- `0x3` DEQUEUE (R80). -/
  | dequeue
  /-- `0x4` WRITE_AT `idx, v` (R90). -/
  | writeAt (idx : Reg16) (v : Element)
  /-- `0x5` READ_AT `idx` (R92). -/
  | readAt (idx : Reg16)
  /-- `0x6` IS_EMPTY (R96). -/
  | isEmpty
  /-- `0x7` IS_FULL (R97). -/
  | isFull
  /-- `0x8` to `0xF`: a reserved opcode `op` on port F (R76). -/
  | illegal (op : Opcode)
  /-- X:NOP (R103). -/
  | xNop
  /-- X:WRITE_AT `idx, v` (R103). -/
  | xWriteAt (idx : Reg16) (v : Element)
  /-- X:READ_AT `idx` (R103). -/
  | xReadAt (idx : Reg16)
  /-- The opcode of CREATE on port X (R70, R103). -/
  | xIllegalCreate
  /-- The opcode of ENQUEUE on port X (R70, R103). -/
  | xIllegalEnqueue
  /-- The opcode of DEQUEUE on port X (R70, R103). -/
  | xIllegalDequeue
  /-- The opcode of IS_EMPTY on port X (R70, R103). -/
  | xIllegalIsEmpty
  /-- The opcode of IS_FULL on port X (R70, R103). -/
  | xIllegalIsFull
  /-- A reserved opcode `op` on port X (R61, R103). -/
  | xIllegal (op : Opcode)
  deriving DecidableEq, Repr

/-- The port a command is presented on. -/
def Instr.port : Instr → Port
  | .nop | .create _ | .enqueue _ | .dequeue | .writeAt _ _ | .readAt _ | .isEmpty | .isFull | .illegal _ => .f
  | .xNop | .xWriteAt _ _ | .xReadAt _ | .xIllegalCreate | .xIllegalEnqueue | .xIllegalDequeue | .xIllegalIsEmpty
  | .xIllegalIsFull | .xIllegal _ => .x

end Sys2Proof
end

