-- ==== Sys2Proof/WellFormed.lean ====
section
/-!
DEFINITION. Which terms of `Instr` a command word of an instance with element width `dw` can stand for: the element
operand fits the `wdata` field (spec/30_encoding.md R59), and the opcode of an illegal command is a reserved one (R61).
-/
namespace Sys2Proof

/-- An element operand is a `dw`-bit value (R59). -/
def elementFits (dw : Nat) (v : Element) : Bool := decide (v < 2 ^ dw)

/-- `op` is one of `0x8` to `0xF` (R61). -/
def reservedOpcode (op : Opcode) : Bool := decide (8 ≤ op.toNat)

/-- The command can be written in a command word of `20 + dw` bits (R56 to R61, R70). -/
def Instr.wellFormed (dw : Nat) : Instr → Bool
  | .nop | .create _ | .dequeue | .readAt _ | .isEmpty | .isFull => true
  | .enqueue v => elementFits dw v
  | .writeAt _ v => elementFits dw v
  | .illegal op => reservedOpcode op
  | .xNop | .xReadAt _ => true
  | .xWriteAt _ v => elementFits dw v
  | .xIllegalCreate | .xIllegalEnqueue | .xIllegalDequeue | .xIllegalIsEmpty | .xIllegalIsFull => true
  | .xIllegal op => reservedOpcode op

end Sys2Proof
end

