-- ==== Sys2Proof/Decode.lean ====
section
/-!
DEFINITION. From command words to commands and back (spec/30_encoding.md sections 2, 3, 5, 6). One format: the command word
of an instance with element width `dw` is `op`, `arg`, `wdata` side by side, `20 + dw` bits (R56). The decoder is total:
each of the 16 opcode values has a command on each port (R61, R70), and a word too wide for the format is refused by name.
-/
namespace Sys2Proof

/-! ## The command word (R56) -/

/-- The fields of the command word `w`: `op` in bits `[dw+19:dw+16]`, `arg` in `[dw+15:dw]`, `wdata` in `[dw-1:0]` (R56). -/
def commandOfWord (dw w : Nat) : Command :=
  { op := BitVec.ofNat 4 (w / 2 ^ (dw + 16)), arg := BitVec.ofNat 16 (w / 2 ^ dw), wdata := w % 2 ^ dw }

/-- The command word `cmd = {op, arg, wdata}` of three fields (R56). -/
def wordOfCommand (dw : Nat) (c : Command) : Nat :=
  c.op.toNat * 2 ^ (dw + 16) + c.arg.toNat * 2 ^ dw + c.wdata % 2 ^ dw

/-! ## Decoding -/

/-- The command that the fields stand for on port F (R60, R61). The opcode alone selects it; a field the command ignores
is not looked at (R62). -/
def decodeF (dw : Nat) (c : Command) : Instr :=
  match c.op.toNat with
  | 0 => .nop
  | 1 => .create c.arg
  | 2 => .enqueue (c.wdata % 2 ^ dw)
  | 3 => .dequeue
  | 4 => .writeAt c.arg (c.wdata % 2 ^ dw)
  | 5 => .readAt c.arg
  | 6 => .isEmpty
  | 7 => .isFull
  | _ => .illegal c.op

/-- The command that the fields stand for on port X: NOP, WRITE_AT and READ_AT are legal there, every other opcode is
illegal (R70, R103). -/
def decodeX (dw : Nat) (c : Command) : Instr :=
  match c.op.toNat with
  | 0 => .xNop
  | 1 => .xIllegalCreate
  | 2 => .xIllegalEnqueue
  | 3 => .xIllegalDequeue
  | 4 => .xWriteAt c.arg (c.wdata % 2 ^ dw)
  | 5 => .xReadAt c.arg
  | 6 => .xIllegalIsEmpty
  | 7 => .xIllegalIsFull
  | _ => .xIllegal c.op

/-- The command that the fields stand for on a port. -/
def decodeCommand (p : Port) (dw : Nat) (c : Command) : Instr :=
  match p with
  | .f => decodeF dw c
  | .x => decodeX dw c

/-- Why a number is no command word. -/
inductive DecodeError where
  /-- The word has a bit set above the `20 + dw` bits of the one format (R56, R65). -/
  | wordTooWide
  deriving DecidableEq, Repr

/-- The command that the word `w` stands for on a port. -/
def decode (p : Port) (dw w : Nat) : Except DecodeError Instr :=
  if w < 2 ^ (dw + 20) then .ok (decodeCommand p dw (commandOfWord dw w)) else .error .wordTooWide

/-! ## Encoding -/

/-- The fields of a command, every ignored field 0 (R60, R62, R70). -/
def encodeCommand : Instr → Command
  | .nop => ⟨0, 0, 0⟩
  | .create cap => ⟨1, cap, 0⟩
  | .enqueue v => ⟨2, 0, v⟩
  | .dequeue => ⟨3, 0, 0⟩
  | .writeAt idx v => ⟨4, idx, v⟩
  | .readAt idx => ⟨5, idx, 0⟩
  | .isEmpty => ⟨6, 0, 0⟩
  | .isFull => ⟨7, 0, 0⟩
  | .illegal op => ⟨op, 0, 0⟩
  | .xNop => ⟨0, 0, 0⟩
  | .xWriteAt idx v => ⟨4, idx, v⟩
  | .xReadAt idx => ⟨5, idx, 0⟩
  | .xIllegalCreate => ⟨1, 0, 0⟩
  | .xIllegalEnqueue => ⟨2, 0, 0⟩
  | .xIllegalDequeue => ⟨3, 0, 0⟩
  | .xIllegalIsEmpty => ⟨6, 0, 0⟩
  | .xIllegalIsFull => ⟨7, 0, 0⟩
  | .xIllegal op => ⟨op, 0, 0⟩

/-- The command word of a well-formed command, presented on the port `i.port`. -/
def encode (dw : Nat) (i : Instr) : Nat := wordOfCommand dw (encodeCommand i)

/-! ## Which fields a command looks at (R60, R62, R70) -/

/-- The opcode `op` on port `p` names a command that uses `arg`: CREATE, WRITE_AT and READ_AT on port F, the last two on
port X. -/
def usesArg (p : Port) (op : Opcode) : Bool :=
  match p with
  | .f => op == 1 || op == 4 || op == 5
  | .x => op == 4 || op == 5

/-- The opcode `op` on port `p` names a command that uses `wdata`: ENQUEUE and WRITE_AT on port F, WRITE_AT on port X. -/
def usesWdata (p : Port) (op : Opcode) : Bool :=
  match p with
  | .f => op == 2 || op == 4
  | .x => op == 4

/-! ## The opcode table's words (reference instance, `DW = 8`) -/

/-- The command the decoder reads from a word of spec/opcode_table.json. The table gives rows for `DW = 8` and does not put
the port into the word: a row of port X has the same word as one of port F, and it is read as port F's here
(notes/assumptions/9.md); `decode .x` reads port X's. -/
def decodeTableWord (nbits w : Nat) : Option Instr :=
  match decode .f 8 (w % 2 ^ nbits) with
  | .ok i => some i
  | .error _ => none

/-! ## Textual syntax (R67) -/

/-- The mnemonic and operands of R67, without the port prefix; an ignored operand of a command illegal on port X is
written as 0, as the encoder drives it (notes/assumptions/12.md). -/
def textOnPort : Instr → String
  | .nop | .xNop => "NOP"
  | .create cap => "CREATE " ++ toString cap.toNat
  | .xIllegalCreate => "CREATE 0"
  | .enqueue v => "ENQUEUE " ++ toString v
  | .xIllegalEnqueue => "ENQUEUE 0"
  | .dequeue | .xIllegalDequeue => "DEQUEUE"
  | .writeAt idx v | .xWriteAt idx v => "WRITE_AT " ++ toString idx.toNat ++ ", " ++ toString v
  | .readAt idx | .xReadAt idx => "READ_AT " ++ toString idx.toNat
  | .isEmpty | .xIllegalIsEmpty => "IS_EMPTY"
  | .isFull | .xIllegalIsFull => "IS_FULL"
  | .illegal op | .xIllegal op => "ILLEGAL " ++ toString op.toNat

/-- The line of R67: a command of port X carries the prefix `X:`. -/
def textOf (i : Instr) : String :=
  match i.port with
  | .f => textOnPort i
  | .x => "X: " ++ textOnPort i

end Sys2Proof
end

