-- ==== Sys2Proof/Machine/State.lean ====
section
/-!
DEFINITION. The state of the machine as plain data (spec/10_state.md R13, R29), the pins sampled at a clock edge
(spec/30_encoding.md R53, R54), the status codes (spec/60_exceptions.md R115) and the reset state (R32).
-/
namespace Sys2Proof.Machine

/-! ## Statuses (R115) -/

/-- The statuses a command can answer with. Code 7 is never produced, so it has no name here (R115;
spec/93_implementation_defined.md U7). -/
inductive Status where
  | ok
  | allocationFailed
  | notInitialized
  | full
  | empty
  | indexOutOfRange
  | illegalCommand
  deriving DecidableEq, Repr

/-- The 3-bit code of a status (R115). -/
def Status.code : Status → StatusCode
  | .ok => 0
  | .allocationFailed => 1
  | .notInitialized => 2
  | .full => 3
  | .empty => 4
  | .indexOutOfRange => 5
  | .illegalCommand => 6

/-! ## Storage (R19, R35) -/

/-- The storage's promised content: the slots written since the last CREATE or reset, as (index, element) pairs in
strictly rising order of index (notes/assumptions/8.md). A slot that is not listed holds no promised value: a read of it finds a free value (R31,
R36). Elements are whole `DW`-bit values, never bytes of one (R39). -/
abbrev Memory := List (Nat × Element)

/-! ## Interface state and inputs -/

/-- The response registers of one port (R29). -/
structure Response where
  valid  : Bool
  status : StatusCode
  data   : Element
  deriving DecidableEq, Repr

/-- The command pins of one port as sampled at a clock edge (R53, R54). -/
structure PortPins where
  valid : Bool
  cmd   : Command
  deriving DecidableEq, Repr

/-- Everything sampled at one clock edge: `rst` and the two ports' command pins (R53, R54, R131). The pins of port X are
not there on an instance without it, and nothing reads `x` then. -/
structure CycleInput where
  rst : Bool
  f   : PortPins
  x   : PortPins
  deriving DecidableEq, Repr

/-! ## The state -/

/-- The state of one controller. `initialized` to `storage` are the tuple of R13, `fRsp` and `xRsp` the response registers of
R29. The other three are the model's own, no registers of the hardware: `inst`, the instance's parameters, which nothing
changes (notes/assumptions/1.md); `draws`, the counter the free values are taken at (notes/assumptions/4.md); and
`inputs`, the pins that the masters and the reset driver will present, one entry for each coming cycle
(notes/assumptions/3.md). -/
structure State where
  inst        : Instance
  initialized : Bool
  capacity    : Reg16
  writeCursor : Reg16
  readCursor  : Reg16
  count       : Reg16
  storage     : Memory
  fRsp        : Response
  xRsp        : Response
  draws       : Nat
  inputs      : List CycleInput
  deriving DecidableEq, Repr

/-! ## How a step can stop -/

/-- Faults: the hardware has none. No command diverts control or stops the controller; an error is a status in the
response (R121), and "Nothing in this hardware is `stuck`" (spec/93_implementation_defined.md part 1). So there is no
constructor, and nothing raises one. -/
inductive Fault where
  deriving DecidableEq, Repr

/-- Refusals. -/
inductive Refusal where
  /-- Raised by an arm of `exec` whose command has no meaning yet. Safe: the run stops. No arm raises it now. -/
  | notModelled (mnemonic : String)
  deriving DecidableEq, Repr

/-- What a meaning answers. -/
abbrev Result := Host.Outcome State Fault Refusal

/-! ## Reset -/

/-- Response registers right after reset. R32 gives `rsp_valid = 0` and leaves status and data unspecified; 0 for those
two is a DESIGN CHOICE, unsafe (notes/assumptions/5.md). -/
def Response.atReset : Response := { valid := false, status := 0, data := 0 }

/-- An instance right after reset (R32), with no input scheduled. `draws = 0` is a DESIGN CHOICE
(notes/assumptions/4.md). -/
def State.resetOf (c : Instance) : State :=
  { inst := c, initialized := false, capacity := 0, writeCursor := 0, readCursor := 0, count := 0, storage := [],
    fRsp := Response.atReset, xRsp := Response.atReset, draws := 0, inputs := [] }

/-- The reference instance right after reset (R32; R7 to R9 for the instance). -/
def State.reset : State := State.resetOf Instance.reference

end Sys2Proof.Machine
end

