-- ==== Sys2Proof/Machine/Ops.lean ====
section
/-!
DEFINITION. The named operations over storage, registers and response registers (spec/20_memory.md R36, R37;
spec/10_state.md R29; spec/00_scope.md R11). Reporting an error is the operation `fail`: the hardware has no exception
entry and no return from one (spec/60_exceptions.md R121, R122), an error is a status in the failing command's response.
-/
namespace Sys2Proof.Machine

/-! ## Storage as data -/

/-- The value listed for slot `i`, or nothing where the spec promises none (R31). -/
def Memory.read : Memory → Nat → Option Element
  | [], _ => none
  | c :: m, i => if c.1 = i then some c.2 else Memory.read m i

/-- `storage[i] <- v`, keeping the indices strictly rising. -/
def Memory.write : Memory → Nat → Element → Memory
  | [], i, v => [(i, v)]
  | c :: m, i, v =>
    if i < c.1 then (i, v) :: c :: m
    else if c.1 = i then (i, v) :: m
    else c :: Memory.write m i v

/-- The canonical form: the indices rise strictly. An unlisted slot reads as no value, so no entry can equal that. -/
def Memory.wf : Memory → Bool
  | [] => true
  | [_] => true
  | c :: d :: m => decide (c.1 < d.1) && Memory.wf (d :: m)

/-! ## Byte layout (R39) -/

/-- Byte `b` of an element: its bits `[8b+7 : 8b]` (R39). -/
def elementByte (v : Element) (b : Nat) : BitVec 8 := BitVec.ofNat 8 (v / 2 ^ (8 * b))

/-- The bytes of one slot, byte `b` of element `i` at offset `i * EW + b` (R39). -/
def slotBytes (ew : Nat) (c : Nat × Element) : List Host.Cell :=
  (List.range ew).map fun b => (c.1 * ew + b, elementByte c.2 b)

/-- The layout of R39 for a tool that must draw the storage in bytes: little-endian within an element. No command
depends on it. -/
def byteLayout (ew : Nat) (m : Memory) : List Host.Cell := m.flatMap (slotBytes ew)

/-! ## The response word (R63) -/

/-- `rsp = {status, data}`, the status above the `dw` bits of data (R63). It means something only while `valid`. -/
def responseWord (dw : Nat) (r : Response) : Nat := r.status.toNat * 2 ^ dw + r.data

/-! ## One field at a time -/

/-- The response registers of a port (R29). -/
def State.rsp (s : State) : Port → Response
  | .f => s.fRsp
  | .x => s.xRsp

/-- Load the response registers of a port. -/
def State.setRsp (s : State) (p : Port) (r : Response) : State :=
  match p with
  | .f => { s with fRsp := r }
  | .x => { s with xRsp := r }

/-- Move on to the next free values. -/
def State.nextDraw (s : State) : State := { s with draws := s.draws + 1 }

/-- Replace the storage's promised content. -/
def State.setStorage (s : State) (m : Memory) : State := { s with storage := m }

/-- `writeCursor <- c`. -/
def State.setWriteCursor (s : State) (c : Reg16) : State := { s with writeCursor := c }

/-- `readCursor <- c`. -/
def State.setReadCursor (s : State) (c : Reg16) : State := { s with readCursor := c }

/-- `count <- n`. -/
def State.setCount (s : State) (n : Reg16) : State := { s with count := n }

/-- The inputs of the coming cycles. -/
def State.setInputs (s : State) (is : List CycleInput) : State := { s with inputs := is }

/-- `initialized <- i`, `capacity <- cap`, cursors and `count` to 0, and no slot holds a promised value any more: what
CREATE does on either outcome (R72) and reset does (R32). -/
def State.newBuffer (s : State) (i : Bool) (cap : Reg16) : State :=
  { s with initialized := i, capacity := cap, writeCursor := 0, readCursor := 0, count := 0, storage := [] }

/-- The canonical uninitialized state, in the registers and the storage (R30). -/
def State.uninitialize (s : State) : State := s.newBuffer false 0

/-! ## Free values, storage access -/

/-- Response data the spec leaves unspecified: any value of `DW` bits (R64). -/
def unspecifiedData (s : State) : Element := (Config.freeData s.inst.dw s.draws).toNat

/-- `MemRead(i)` (R36): the value last written to slot `i`, or any value of `DW` bits where the slot has not been written
since the last CREATE or reset. It changes no state; the command that reads goes on to the next free values when it
responds, so that two reads of such a slot need not agree (R31). -/
def memRead (s : State) (i : Reg16) : Element :=
  match s.storage.read i.toNat with
  | some v => v
  | none => (Config.freeElement s.inst.dw s.draws).toNat

/-- `MemWrite(i, v)` (R37): slot `i` and nothing else. -/
def memWrite (s : State) (i : Reg16) (v : Element) : State := s.setStorage (s.storage.write i.toNat v)

/-! ## Responses -/

/-- `respond(S, d)` on port `p` (R11, R138): the command ends with status `S` and data `d`. -/
def respond (p : Port) (st : Status) (d : Element) (s : State) : State :=
  (s.setRsp p { valid := true, status := st.code, data := d }).nextDraw

/-- `respond(S)` on port `p`: the data is unspecified (R11, R64). -/
def respondNoData (p : Port) (st : Status) (s : State) : State := respond p st (unspecifiedData s) s

/-- Report the error `st` on port `p`: its code in the response, and nothing else changes (R118, R120). -/
def fail (p : Port) (st : Status) (s : State) : State := respondNoData p st s

/-- No command was accepted on port `p` in this cycle: `rsp_valid` becomes 0, status and data are unspecified (R138). -/
def noResponse (p : Port) (s : State) : State :=
  (s.setRsp p { valid := false, status := Config.freeStatus s.draws, data := unspecifiedData s }).nextDraw

/-- The guard of every command but NOP, CREATE and the illegal ones: `NotInitialized` unless `initialized` (R14, R119). -/
def ifInitialized (p : Port) (s : State) (body : State) : State :=
  if s.initialized then body else fail p .notInitialized s

end Sys2Proof.Machine
end

