-- ==== Sys2Proof/Machine/Arbiter.lean ====
section
/-!
DEFINITION. Acceptance of commands and the memory-port arbiter (spec/70_reset_and_hazards.md R133; spec/44_arbiter.md R105 to R107),
as functions of the pins sampled in one cycle.
-/
namespace Sys2Proof.Machine

/-- The port of the storage memory a command needs (R52, R105). -/
inductive MemoryPort where
  | none
  | write
  | read
  deriving DecidableEq, Repr

/-- `NeedF(op)`: ENQUEUE and WRITE_AT the write port, DEQUEUE and READ_AT the read port (R105). -/
def needF (op : Opcode) : MemoryPort :=
  if op = 2 ∨ op = 4 then .write else if op = 3 ∨ op = 5 then .read else .none

/-- `NeedX(op)`: WRITE_AT the write port, READ_AT the read port (R105). -/
def needX (op : Opcode) : MemoryPort :=
  if op = 4 then .write else if op = 5 then .read else .none

/-- Both ports present a command for the same memory port (R106). It depends on `x_op` whatever `x_valid` is. -/
def conflict (inp : CycleInput) : Bool :=
  inp.f.valid && decide (needF inp.f.cmd.op ≠ .none) && decide (needF inp.f.cmd.op = needX inp.x.cmd.op)

/-- The pin `x_ready` (R106). -/
def xReady (inp : CycleInput) : Bool := !conflict inp

/-- A command is accepted on port F in the cycle (R133). -/
def acceptedF (inp : CycleInput) : Bool := !inp.rst && inp.f.valid

/-- A command is accepted on port X in the cycle: only where the instance has a port X (R9, R107, R133). -/
def acceptedX (c : Instance) (inp : CycleInput) : Bool := c.xport && !inp.rst && inp.x.valid && xReady inp

/-! ## The inputs of a cycle -/

/-- Pins of a port on which nothing is presented. -/
def idlePins : PortPins := { valid := false, cmd := ⟨0, 0, 0⟩ }

/-- Nothing presented on either port, no reset. -/
def idleInput : CycleInput := { rst := false, f := idlePins, x := idlePins }

/-- What is sampled at the coming edge. Where no input is scheduled any more the masters present nothing
(notes/assumptions/3.md). -/
def currentInput (s : State) : CycleInput := s.inputs.headD idleInput

/-- The cycle's input has been sampled. -/
def consumeInput (s : State) : State := s.setInputs s.inputs.tail

end Sys2Proof.Machine
end

