-- ==== Sys2Proof/Machine/Flags.lean ====
section
/-!
DEFINITION. The predicates `IsEmpty` and `IsFull` (spec/10_state.md R22, R23), the status pins (spec/43_status.md R99) and the
predicates as response data (spec/30_encoding.md R64). No flag is stored: each is computed from the registers (R95).
-/
namespace Sys2Proof.Machine

/-- `IsEmpty(s)` (R22). It does not read `initialized`. -/
def isEmpty (s : State) : Bool := decide (s.count = 0) && decide (s.writeCursor = s.readCursor)

/-- `IsFull(s)` (R23). It does not read `initialized`. -/
def isFull (s : State) : Bool := decide (s.count = s.capacity) && decide (s.writeCursor = s.readCursor)

/-- The pin `initialized` (R99). -/
def initializedPin (s : State) : Bool := s.initialized

/-- The pin `empty`, gated with `initialized` (R99). -/
def emptyPin (s : State) : Bool := s.initialized && isEmpty s

/-- The pin `full`, gated with `initialized` (R99). -/
def fullPin (s : State) : Bool := s.initialized && isFull s

/-- `zext_DW` of a predicate: bit 0 is the predicate, the bits above are 0 (R64). -/
def flagData (b : Bool) : Element := b.toNat

end Sys2Proof.Machine
end

