-- ==== Sys2Proof/Machine/Operands.lean ====
section
/-!
DEFINITION. Effective indices, the range check, and the pointer and count arithmetic (spec/40_create.md R150;
spec/20_memory.md R38; spec/41_fifo.md R77, R83). There are two addressing modes: cursor-indirect and absolute.
-/
namespace Sys2Proof.Machine

/-! ## Effective indices (R150) -/

/-- Where ENQUEUE stores: `writeCursor` as it is before the command (R150). -/
def enqueueIndex (s : State) : Reg16 := s.writeCursor

/-- Where DEQUEUE loads: `readCursor` as it is before the command (R150). -/
def dequeueIndex (s : State) : Reg16 := s.readCursor

/-- Where WRITE_AT and READ_AT go: the index operand, unmodified (R58, R150). -/
def absoluteIndex (idx : Reg16) : Reg16 := idx

/-- The only address check: the index is below `capacity` (R38). -/
def indexInRange (s : State) (idx : Reg16) : Bool := decide (idx.toNat < s.capacity.toNat)

/-- The capacity a CREATE can have: neither 0 nor above `DEPTH` (R72). -/
def capacityFits (s : State) (cap : Reg16) : Bool := decide (cap.toNat ≠ 0) && decide (cap.toNat ≤ s.inst.depth)

/-! ## Arithmetic (R77, R83) -/

/-- `IncMod(c, n) = (c + 1) mod n` (R77), for `c < n`. -/
def incMod (c n : Reg16) : Reg16 := BitVec.ofNat 16 ((c.toNat + 1) % n.toNat)

/-- The cursor after `c`: `IncMod(c, n)` where the spec defines it, otherwise a free value (R77; notes/assumptions/6.md). -/
def nextCursor (s : State) (c : Reg16) : Reg16 :=
  if c.toNat < s.capacity.toNat then incMod c s.capacity else Config.freeCursor s.draws

/-- `count + 1` (R83 c), a free value where that is no 16-bit number (notes/assumptions/6.md). -/
def countUp (s : State) : Reg16 :=
  if s.count.toNat < 65535 then s.count + 1 else Config.freeCount s.draws

/-- `count - 1` (R83 d), a free value where that would be negative (R81; notes/assumptions/6.md). -/
def countDown (s : State) : Reg16 :=
  if s.count.toNat = 0 then Config.freeCount s.draws else s.count - 1

end Sys2Proof.Machine
end

