-- ==== Sys2Proof/Machine/Create.lean ====
section
/-!
DEFINITION. CREATE, NOP and the reserved opcodes (spec/40_create.md R72, R73, R75, R76).
-/
namespace Sys2Proof.Machine

/-! ## Shared by the two ports -/

/-- NOP on a port: `OK`, nothing else (R75). -/
def nopOn (p : Port) (s : State) : State := respondNoData p .ok s

/-- An illegal command on a port: `IllegalCommand`, without a look at the state (R76, R119). -/
def illegalOn (p : Port) (s : State) : State := fail p .illegalCommand s

/-! ## Port F -/

/-- NOP (R75). -/
def execNop (s : State) : Result := .next (nopOn .f s)

/-- CREATE `cap` (R72), in any state (R73): a new buffer of `cap` slots, or, where `cap` is 0 or above `DEPTH`,
`AllocationFailed` and the canonical uninitialized state. -/
def execCreate (cap : Reg16) (s : State) : Result :=
  .next <|
    if capacityFits s cap then respondNoData .f .ok (s.newBuffer true cap)
    else fail .f .allocationFailed s.uninitialize

/-- A reserved opcode (R76). -/
def execIllegal (_op : Opcode) (s : State) : Result := .next (illegalOn .f s)

end Sys2Proof.Machine
end

