-- ==== Sys2Proof/Machine/Fifo.lean ====
section
/-!
DEFINITION. ENQUEUE and DEQUEUE (spec/41_fifo.md R78, R80).
-/
namespace Sys2Proof.Machine

/-- What ENQUEUE does to a buffer that is not full: store at `writeCursor`, advance it, count the element (R78, R150). -/
def pushElement (v : Element) (s : State) : State :=
  ((memWrite s (enqueueIndex s) v).setWriteCursor (nextCursor s s.writeCursor)).setCount (countUp s)

/-- What DEQUEUE does to a buffer that is not empty: advance `readCursor`, count the element out (R80, R150). The slot keeps
its value (R42). -/
def popElement (s : State) : State :=
  (s.setReadCursor (nextCursor s s.readCursor)).setCount (countDown s)

/-- ENQUEUE `v` (R78). -/
def execEnqueue (v : Element) (s : State) : Result :=
  .next <| ifInitialized .f s <|
    if isFull s then fail .f .full s
    else respondNoData .f .ok (pushElement v s)

/-- DEQUEUE (R80). The element is read at `readCursor` as it is before the command. -/
def execDequeue (s : State) : Result :=
  .next <| ifInitialized .f s <|
    if isEmpty s then fail .f .empty s
    else respond .f .ok (memRead s (dequeueIndex s)) (popElement s)

end Sys2Proof.Machine
end

