-- ==== Sys2Proof/Machine/Indexed.lean ====
section
/-!
DEFINITION. The indexed commands WRITE_AT and READ_AT (spec/42_indexed.md R89, R90, R92). They do the same on either port.
-/
namespace Sys2Proof.Machine

/-! ## Shared by the two ports -/

/-- WRITE_AT `idx, v` on a port (R90). -/
def writeAtOn (p : Port) (idx : Reg16) (v : Element) (s : State) : State :=
  ifInitialized p s <|
    if indexInRange s idx then respondNoData p .ok (memWrite s (absoluteIndex idx) v)
    else fail p .indexOutOfRange s

/-- READ_AT `idx` on a port (R92). -/
def readAtOn (p : Port) (idx : Reg16) (s : State) : State :=
  ifInitialized p s <|
    if indexInRange s idx then respond p .ok (memRead s (absoluteIndex idx)) s
    else fail p .indexOutOfRange s

/-! ## Port F -/

/-- WRITE_AT `idx, v` (R90). -/
def execWriteAt (idx : Reg16) (v : Element) (s : State) : Result := .next (writeAtOn .f idx v s)

/-- READ_AT `idx` (R92). -/
def execReadAt (idx : Reg16) (s : State) : Result := .next (readAtOn .f idx s)

end Sys2Proof.Machine
end

