-- ==== Sys2Proof/Machine/PortX.lean ====
section
/-!
DEFINITION. `ExecX`, the commands of port X (spec/44_arbiter.md R103): NOP, WRITE_AT and READ_AT as on port F, with the response
on port X; every other opcode is illegal there (spec/30_encoding.md R70). Each meaning is that of an accepted command:
whether one is accepted is the arbiter's (Machine/Arbiter.lean; notes/assumptions/7.md).
-/
namespace Sys2Proof.Machine

/-- X:NOP (R75, R103). -/
def execXNop (s : State) : Result := .next (nopOn .x s)

/-- X:WRITE_AT `idx, v` (R90, R103). -/
def execXWriteAt (idx : Reg16) (v : Element) (s : State) : Result := .next (writeAtOn .x idx v s)

/-- X:READ_AT `idx` (R92, R103). -/
def execXReadAt (idx : Reg16) (s : State) : Result := .next (readAtOn .x idx s)

/-- CREATE's opcode on port X (R70, R103). -/
def execXIllegalCreate (s : State) : Result := .next (illegalOn .x s)

/-- ENQUEUE's opcode on port X (R70, R103). -/
def execXIllegalEnqueue (s : State) : Result := .next (illegalOn .x s)

/-- DEQUEUE's opcode on port X (R70, R103). -/
def execXIllegalDequeue (s : State) : Result := .next (illegalOn .x s)

/-- IS_EMPTY's opcode on port X (R70, R103). -/
def execXIllegalIsEmpty (s : State) : Result := .next (illegalOn .x s)

/-- IS_FULL's opcode on port X (R70, R103). -/
def execXIllegalIsFull (s : State) : Result := .next (illegalOn .x s)

/-- A reserved opcode on port X (R61, R103). -/
def execXIllegal (_op : Opcode) (s : State) : Result := .next (illegalOn .x s)

end Sys2Proof.Machine
end

