-- ==== Sys2Proof/Machine/Query.lean ====
section
/-!
DEFINITION. The status commands IS_EMPTY and IS_FULL (spec/43_status.md R96, R97, R98).
-/
namespace Sys2Proof.Machine

/-- IS_EMPTY (R96). -/
def execIsEmpty (s : State) : Result :=
  .next <| ifInitialized .f s <| respond .f .ok (flagData (isEmpty s)) s

/-- IS_FULL (R97). -/
def execIsFull (s : State) : Result :=
  .next <| ifInitialized .f s <| respond .f .ok (flagData (isFull s)) s

end Sys2Proof.Machine
end

