-- ==== Sys2Proof/Machine/Dispatch.lean ====
section
/-! DEFINITION. `Exec` and `ExecX`: the meaning of one accepted command (spec/40_create.md R71, spec/44_arbiter.md R103). -/
namespace Sys2Proof.Machine

def exec (i : Instr) (s : State) : Host.Outcome State Fault Refusal :=
  match i with
  | .nop => Sys2Proof.Machine.execNop s
  | .create cap => Sys2Proof.Machine.execCreate cap s
  | .enqueue v => Sys2Proof.Machine.execEnqueue v s
  | .dequeue => Sys2Proof.Machine.execDequeue s
  | .writeAt idx v => Sys2Proof.Machine.execWriteAt idx v s
  | .readAt idx => Sys2Proof.Machine.execReadAt idx s
  | .isEmpty => Sys2Proof.Machine.execIsEmpty s
  | .isFull => Sys2Proof.Machine.execIsFull s
  | .illegal op => Sys2Proof.Machine.execIllegal op s
  | .xNop => Sys2Proof.Machine.execXNop s
  | .xWriteAt idx v => Sys2Proof.Machine.execXWriteAt idx v s
  | .xReadAt idx => Sys2Proof.Machine.execXReadAt idx s
  | .xIllegalCreate => Sys2Proof.Machine.execXIllegalCreate s
  | .xIllegalEnqueue => Sys2Proof.Machine.execXIllegalEnqueue s
  | .xIllegalDequeue => Sys2Proof.Machine.execXIllegalDequeue s
  | .xIllegalIsEmpty => Sys2Proof.Machine.execXIllegalIsEmpty s
  | .xIllegalIsFull => Sys2Proof.Machine.execXIllegalIsFull s
  | .xIllegal op => Sys2Proof.Machine.execXIllegal op s

end Sys2Proof.Machine
end

