-- ==== Sys2Proof/Machine/Cycle.lean ====
section
/-!
DEFINITION. The cycle function (spec/70_reset_and_hazards.md R132, R136 to R138; spec/44_arbiter.md R104): what one rising clock edge does.
-/
namespace Sys2Proof.Machine

/-- Port X's response registers when no command is accepted there; on an instance without port X there are none (R9,
R138). -/
def noResponseX (s : State) : State := if s.inst.xport then noResponse .x s else s

/-- An edge with `rst == 1` (R132): the registers as R32 gives them, no slot with a promised value, no response on either
port. The status and data registers are unspecified, so they are free values here, not the zeros that
`State.reset` names (notes/assumptions/5.md). -/
def resetEdge (s : State) : State := noResponseX (noResponse .f s.uninitialize)

/-- Port F's part of an edge: the accepted command executes, otherwise there is no response (R137, R138). -/
def edgeF (inp : CycleInput) (s : State) : Result :=
  if acceptedF inp then exec (decodeF s.inst.dw inp.f.cmd) s else .next (noResponse .f s)

/-- Port X's part of an edge, in the state port F left (R104, R137, R138). -/
def edgeX (inp : CycleInput) (s : State) : Result :=
  if acceptedX s.inst inp then exec (decodeX s.inst.dw inp.x.cmd) s else .next (noResponseX s)

/-- What follows the first part of an edge. -/
def andThen (r : Result) (k : State → Result) : Result :=
  match r with
  | .next s => k s
  | .fault e => .fault e
  | .refused e => .refused e

/-- `Cycle` (R137): reset has priority over everything presented (R132); otherwise port F, then port X. -/
def cycle (inp : CycleInput) (s : State) : Result :=
  if inp.rst then .next (resetEdge s) else andThen (edgeF inp s) (edgeX inp)

/-- A cycle in which port F's master presents the command `c` and nothing else happens. -/
def presentF (c : Command) : CycleInput := { rst := false, f := { valid := true, cmd := c }, x := idlePins }

/-- A cycle in which port X's master presents the command `c` and nothing else happens. -/
def presentX (c : Command) : CycleInput := { rst := false, f := idlePins, x := { valid := true, cmd := c } }

/-- The coming cycle's input is `inp`, in the place of what was scheduled for it. -/
def scheduleNext (s : State) (inp : CycleInput) : State := s.setInputs (inp :: s.inputs.tail)

end Sys2Proof.Machine
end

