-- ==== Sys2Proof/Machine/Step.lean ====
section
/-!
DEFINITION. One step of the machine: one clock cycle (spec/70_reset_and_hazards.md R131, R137).
-/
namespace Sys2Proof.Machine

/-- One rising edge of `clk`: sample the pins, then the cycle function (R131, R137; notes/assumptions/11.md). -/
def step (s : State) : Host.Outcome State Fault Refusal := cycle (currentInput s) (consumeInput s)

/-- Port F's master presents the command word `w` of spec/opcode_table.json in the coming cycle: there is no fetch, so
this stands for it (R27; notes/assumptions/9.md). The table's words are those of `DW = 8`. -/
def State.withFetchWord (s : State) (nbits w : Nat) : State := scheduleNext s (presentF (commandOfWord 8 (w % 2 ^ nbits)))

end Sys2Proof.Machine
end

