-- ==== Sys2Proof/Safety.lean ====
section
/-!
DEFINITION. The terms that claims use: the state invariant (spec/10_state.md section 5), the logical queue (R26), what it is to
answer a command and to leave state alone, sequences of commands (spec/41_fifo.md section 5), and the serialised command list
of a run (spec/44_arbiter.md R113).
-/
namespace Sys2Proof.Machine

/-! ## The invariant -/

/-- Registers of an initialized buffer (R15, R20, R21, R24) and of the uninitialized controller (R30). -/
abbrev BufferInv (s : State) : Prop :=
  (s.initialized = true →
    1 ≤ s.capacity.toNat ∧ s.capacity.toNat ≤ s.inst.depth ∧
    s.writeCursor.toNat < s.capacity.toNat ∧ s.readCursor.toNat < s.capacity.toNat ∧
    s.count.toNat ≤ s.capacity.toNat ∧
    s.writeCursor.toNat = (s.readCursor.toNat + s.count.toNat) % s.capacity.toNat) ∧
  (s.initialized = false → s.capacity = 0 ∧ s.writeCursor = 0 ∧ s.readCursor = 0 ∧ s.count = 0)

/-- Storage: the canonical form; only slots below `capacity` have been written (R19, R38); each holds a `DW`-bit value
(R39). -/
abbrev StorageInv (s : State) : Prop :=
  Memory.wf s.storage = true ∧
  (∀ c ∈ s.storage, c.1 < s.capacity.toNat ∧ c.2 < 2 ^ s.inst.dw)

/-- Every occupied slot (R26) has been written since the CREATE, so that no FIFO command reads another (R135). -/
abbrev OccupiedInv (s : State) : Prop :=
  ∀ k : Nat, k < s.count.toNat →
    (s.storage.read ((s.readCursor.toNat + k) % s.capacity.toNat)).isSome = true

/-- One port's response registers: the data is a `DW`-bit value; a valid status is one of the codes 0 to 6 (R115). -/
abbrev ResponseOk (dw : Nat) (r : Response) : Prop :=
  r.data < 2 ^ dw ∧ (r.valid = true → r.status.toNat ≤ 6)

/-- The response registers; an instance without port X never shows a response there (R9, R102). -/
abbrev ResponseInv (s : State) : Prop :=
  ResponseOk s.inst.dw s.fRsp ∧ ResponseOk s.inst.dw s.xRsp ∧ (s.inst.xport = false → s.xRsp.valid = false)

/-- What holds of every state that a run can reach from reset, on any instance. -/
abbrev StateInv (s : State) : Prop :=
  s.inst.Wf ∧ BufferInv s ∧ StorageInv s ∧ OccupiedInv s ∧ ResponseInv s

/-! ## The logical queue (R26) -/

/-- `Q(s)`: the content of the occupied slots, oldest first. `none` stands for a slot without a promised value; under
the invariant there is none in the queue. -/
def queue (s : State) : List (Option Element) :=
  (List.range s.count.toNat).map fun k => s.storage.read ((s.readCursor.toNat + k) % s.capacity.toNat)

/-- How far slot `idx` is ahead of `readCursor`, `(idx - readCursor) mod capacity` (R94). -/
def aheadOfReadCursor (s : State) (idx : Reg16) : Nat :=
  (idx.toNat + s.capacity.toNat - s.readCursor.toNat) % s.capacity.toNat

/-! ## What a command leaves alone, and what it answers -/

/-- The other port. -/
def otherPort : Port → Port
  | .f => .x
  | .x => .f

/-- The registers of R13 are the same in `s` and `t`. -/
structure SameRegisters (s t : State) : Prop where
  initialized : t.initialized = s.initialized
  capacity    : t.capacity = s.capacity
  writeCursor : t.writeCursor = s.writeCursor
  readCursor  : t.readCursor = s.readCursor
  count       : t.count = s.count

/-- Every slot reads in `t` as it does in `s`. -/
def SameStorage (s t : State) : Prop := ∀ i : Nat, t.storage.read i = s.storage.read i

/-- The whole tuple of R13 is the same in `s` and `t`: the registers, and the storage as data. -/
structure SameBuffer (s t : State) : Prop where
  registers : SameRegisters s t
  storage   : t.storage = s.storage

/-- The command that led from `s` to `t` was answered on port `p` with status `st`: the port's response registers show it
(R138), and the other port's, the parameters and the coming inputs are untouched. -/
structure Answers (p : Port) (st : Status) (s t : State) : Prop where
  valid  : (t.rsp p).valid = true
  status : (t.rsp p).status = st.code
  other  : t.rsp (otherPort p) = s.rsp (otherPort p)
  inst   : t.inst = s.inst
  inputs : t.inputs = s.inputs

/-- The command was answered with the error `st` and changed nothing but the response (R118, R120). -/
structure FailsWith (p : Port) (st : Status) (s t : State) : Prop where
  answers   : Answers p st s t
  registers : SameRegisters s t
  storage   : SameStorage s t

/-- The command `i` completes in `s` and is answered with status `st` on its port. -/
def Replies (i : Instr) (s : State) (st : Status) : Prop := ∃ t, exec i s = .next t ∧ Answers i.port st s t

/-- The command `i` completes in `s` and is answered with status `st` and data `d` on its port. -/
def RepliesWith (i : Instr) (s : State) (st : Status) (d : Element) : Prop :=
  ∃ t, exec i s = .next t ∧ Answers i.port st s t ∧ (t.rsp i.port).data = d

/-- The slot a command stores to when it succeeds (R150): the same effective index the meanings use. -/
def storeIndex : Instr → State → Option Nat
  | .enqueue _, s => some (enqueueIndex s).toNat
  | .writeAt idx _, _ | .xWriteAt idx _, _ => some (absoluteIndex idx).toNat
  | .nop, _ | .create _, _ | .dequeue, _ | .readAt _, _ | .isEmpty, _ | .isFull, _ | .illegal _, _ | .xNop, _
  | .xReadAt _, _ | .xIllegalCreate, _ | .xIllegalEnqueue, _ | .xIllegalDequeue, _ | .xIllegalIsEmpty, _
  | .xIllegalIsFull, _ | .xIllegal _, _ => none

/-- The command is CREATE. -/
def isCreate : Instr → Bool
  | .create _ => true
  | .nop | .enqueue _ | .dequeue | .writeAt _ _ | .readAt _ | .isEmpty | .isFull | .illegal _ | .xNop | .xWriteAt _ _
  | .xReadAt _ | .xIllegalCreate | .xIllegalEnqueue | .xIllegalDequeue | .xIllegalIsEmpty | .xIllegalIsFull
  | .xIllegal _ => false

/-- The command is WRITE_AT, on either port. -/
def isWriteAt : Instr → Bool
  | .writeAt _ _ | .xWriteAt _ _ => true
  | .nop | .create _ | .enqueue _ | .dequeue | .readAt _ | .isEmpty | .isFull | .illegal _ | .xNop | .xReadAt _
  | .xIllegalCreate | .xIllegalEnqueue | .xIllegalDequeue | .xIllegalIsEmpty | .xIllegalIsFull | .xIllegal _ => false

/-- The status a command answers with in a state, from the causes of R116 alone, in the order of R119. -/
def expectedStatus (i : Instr) (s : State) : Status :=
  match i with
  | .nop | .xNop => .ok
  | .create cap => if cap.toNat = 0 ∨ s.inst.depth < cap.toNat then .allocationFailed else .ok
  | .enqueue _ =>
    if s.initialized = false then .notInitialized
    else if s.count = s.capacity ∧ s.writeCursor = s.readCursor then .full else .ok
  | .dequeue =>
    if s.initialized = false then .notInitialized
    else if s.count = 0 ∧ s.writeCursor = s.readCursor then .empty else .ok
  | .writeAt idx _ | .xWriteAt idx _ | .readAt idx | .xReadAt idx =>
    if s.initialized = false then .notInitialized
    else if s.capacity.toNat ≤ idx.toNat then .indexOutOfRange else .ok
  | .isEmpty | .isFull => if s.initialized = false then .notInitialized else .ok
  | .illegal _ | .xIllegalCreate | .xIllegalEnqueue | .xIllegalDequeue | .xIllegalIsEmpty | .xIllegalIsFull
  | .xIllegal _ => .illegalCommand

/-- The response data the spec promises for a command in a state, read off R64's table with the contents of slots as R36 promises
them: the element at `readCursor` before a successful DEQUEUE, the element at the index of a successful READ_AT, the
predicate in bit 0 for a successful IS_EMPTY or IS_FULL. `none`: the data is unspecified. -/
def promisedData (i : Instr) (s : State) : Option Element :=
  if expectedStatus i s = .ok then
    match i with
    | .dequeue => s.storage.read (dequeueIndex s).toNat
    | .readAt idx | .xReadAt idx => s.storage.read (absoluteIndex idx).toNat
    | .isEmpty => some (if s.count = 0 ∧ s.writeCursor = s.readCursor then 1 else 0)
    | .isFull => some (if s.count = s.capacity ∧ s.writeCursor = s.readCursor then 1 else 0)
    | .nop | .create _ | .enqueue _ | .writeAt _ _ | .illegal _ | .xNop | .xWriteAt _ _ | .xIllegalCreate
    | .xIllegalEnqueue | .xIllegalDequeue | .xIllegalIsEmpty | .xIllegalIsFull | .xIllegal _ => none
  else none

/-- A response carries the data promised for it, where any is. -/
def CarriesPromise (promise : Option Element) (r : Response) : Prop := ∀ d : Element, promise = some d → r.data = d

/-! ## Sequences of commands (spec/41_fifo.md section 5) -/

/-- The commands one after the other, stopping at a fault or a refusal. -/
def execAll : List Instr → State → Result
  | [], s => .next s
  | i :: is, s => andThen (exec i s) (execAll is)

/-- The responses to a sequence of commands, in order, each on the port of its command. -/
def responses : List Instr → State → List Response
  | [], _ => []
  | i :: is, s =>
    match exec i s with
    | .next t => t.rsp i.port :: responses is t
    | .fault _ => []
    | .refused _ => []

/-- The promised data of a sequence of commands, in order. -/
def promises : List Instr → State → List (Option Element)
  | [], _ => []
  | i :: is, s =>
    match exec i s with
    | .next t => promisedData i s :: promises is t
    | .fault _ => []
    | .refused _ => []

/-- The element an accepted command put into the buffer as an ENQUEUE that answered `OK`, if it is one; `t` is the state
after it. -/
def enqueuedBy : Instr → State → List Element
  | .enqueue v, t => if t.fRsp.status = Status.code .ok then [v] else []
  | .nop, _ | .create _, _ | .dequeue, _ | .writeAt _ _, _ | .readAt _, _ | .isEmpty, _ | .isFull, _ | .illegal _, _
  | .xNop, _ | .xWriteAt _ _, _ | .xReadAt _, _ | .xIllegalCreate, _ | .xIllegalEnqueue, _ | .xIllegalDequeue, _
  | .xIllegalIsEmpty, _ | .xIllegalIsFull, _ | .xIllegal _, _ => []

/-- The element an accepted command returned as a DEQUEUE that answered `OK`, if it is one; `t` is the state after it. -/
def dequeuedBy : Instr → State → List Element
  | .dequeue, t => if t.fRsp.status = Status.code .ok then [t.fRsp.data] else []
  | .nop, _ | .create _, _ | .enqueue _, _ | .writeAt _ _, _ | .readAt _, _ | .isEmpty, _ | .isFull, _ | .illegal _, _
  | .xNop, _ | .xWriteAt _ _, _ | .xReadAt _, _ | .xIllegalCreate, _ | .xIllegalEnqueue, _ | .xIllegalDequeue, _
  | .xIllegalIsEmpty, _ | .xIllegalIsFull, _ | .xIllegal _, _ => []

/-- The values of the ENQUEUEs of a sequence that answered `OK`, in order. -/
def enqueued : List Instr → State → List Element
  | [], _ => []
  | i :: is, s =>
    match exec i s with
    | .next t => enqueuedBy i t ++ enqueued is t
    | .fault _ => []
    | .refused _ => []

/-- The data of the DEQUEUEs of a sequence that answered `OK`, in order. -/
def dequeued : List Instr → State → List Element
  | [], _ => []
  | i :: is, s =>
    match exec i s with
    | .next t => dequeuedBy i t ++ dequeued is t
    | .fault _ => []
    | .refused _ => []

/-! ## Runs of cycles -/

/-- `n` clock cycles, stopping at a fault or a refusal. -/
def runCycles : Nat → State → Result
  | 0, s => .next s
  | n + 1, s => andThen (step s) (runCycles n)

/-- The responses a state's response registers show, port F's before port X's. -/
def shownBy (s : State) : List Response :=
  (if s.fRsp.valid then [s.fRsp] else []) ++ (if s.inst.xport && s.xRsp.valid then [s.xRsp] else [])

/-- The responses shown after each of `n` cycles, in order. -/
def shownResponses : Nat → State → List Response
  | 0, _ => []
  | n + 1, s =>
    match step s with
    | .next t => shownBy t ++ shownResponses n t
    | .fault _ => []
    | .refused _ => []

/-- A cycle in which both masters present a command (R104, R106). -/
def presentBoth (cf cx : Command) : CycleInput :=
  { rst := false, f := { valid := true, cmd := cf }, x := { valid := true, cmd := cx } }

/-- The commands accepted in one cycle, port F's before port X's (R104, R107). -/
def acceptedIn (c : Instance) (inp : CycleInput) : List Instr :=
  (if acceptedF inp then [decodeF c.dw inp.f.cmd] else []) ++
  (if acceptedX c inp then [decodeX c.dw inp.x.cmd] else [])

/-- The one command sequence a run of cycles equals (R113): cycle by cycle, the accepted F command, then the accepted X
command. -/
def serialised (c : Instance) (inputs : List CycleInput) : List Instr := inputs.flatMap (acceptedIn c)

end Sys2Proof.Machine
end

