-- ==== Sys2Proof/Certificates/Slice0/Obligations.lean ====
section
/-!
DEFINITION. The statements for the provers, in the order of the spec's files. What is said of the next state's fields is said through
the model's own reads: `Memory.read` for one slot, `State.rsp` for one port's response registers.
-/
open Sys2Proof Sys2Proof.Machine

/-! ## Encoding (spec/30_encoding.md) -/

/-- Decoding the encoded word of a well-formed command, on its port, gives the command, for every element width and every
operand the encoding admits (R56 to R61, R70). -/
def Obligations.DecodeOfEncodeIsTheCommand : Prop :=
  ∀ (dw : Nat) (i : Instr), i.wellFormed dw = true → decode i.port dw (encode dw i) = .ok i

/-- What the decoder reads from a word is well formed, is on the port it was read for, and its encoding has the word's
opcode and, field by field, the word's value where the command uses the field and 0 where it does not. -/
def Obligations.EncodeOfDecodeKeepsUsedFields : Prop :=
  ∀ (p : Port) (dw w : Nat) (i : Instr), decode p dw w = .ok i →
    i.wellFormed dw = true ∧ i.port = p ∧
    (encodeCommand i).op = (commandOfWord dw w).op ∧
    (encodeCommand i).arg = (if usesArg p (commandOfWord dw w).op then (commandOfWord dw w).arg else 0) ∧
    (encodeCommand i).wdata = (if usesWdata p (commandOfWord dw w).op then (commandOfWord dw w).wdata else 0)

/-- Words written out from the encoding tables of the spec decode to the commands they stand for (R56, R60, R61, R70;
spec/95_test_vectors.md). -/
def Obligations.SpecWordsDecode : Prop :=
  decodeTableWord 28 0x0000000 = some .nop ∧
  decodeTableWord 28 0x1000400 = some (.create 4) ∧
  decodeTableWord 28 0x200005A = some (.enqueue 0x5A) ∧
  decodeTableWord 28 0x3000000 = some .dequeue ∧
  decodeTableWord 28 0x4000277 = some (.writeAt 2 0x77) ∧
  decodeTableWord 28 0x5FFFF00 = some (.readAt 0xFFFF) ∧
  decodeTableWord 28 0x6000000 = some .isEmpty ∧
  decodeTableWord 28 0x7000000 = some .isFull ∧
  decodeTableWord 28 0x9000000 = some (.illegal 9) ∧
  decode .x 8 0x0000000 = .ok .xNop ∧
  decode .x 8 0x40000AA = .ok (.xWriteAt 0 0xAA) ∧
  decode .x 8 0x5000200 = .ok (.xReadAt 2) ∧
  decode .x 8 0x2000055 = .ok .xIllegalEnqueue ∧
  decode .x 8 0xF000000 = .ok (.xIllegal 15)

/-- Ignored fields: two sets of fields that agree on the opcode and on the fields the command uses are the same command, on
either port; and while a port's `valid` pin is 0 its three command fields make no difference to the cycle (R62). -/
def Obligations.IgnoredFieldsDoNotMatter : Prop :=
  (∀ (p : Port) (dw : Nat) (c c' : Command), c.op = c'.op →
    (usesArg p c.op = true → c.arg = c'.arg) →
    (usesWdata p c.op = true → c.wdata % 2 ^ dw = c'.wdata % 2 ^ dw) →
    decodeCommand p dw c = decodeCommand p dw c') ∧
  (∀ (inp : CycleInput) (cf : Command) (s : State), inp.f.valid = false →
    cycle inp s = cycle { inp with f := { valid := false, cmd := cf } } s) ∧
  (∀ (inp : CycleInput) (cx : Command) (s : State), inp.x.valid = false →
    cycle inp s = cycle { inp with x := { valid := false, cmd := cx } } s)

/-! ## The step -/

/-- A step runs the command presented on port F, as `exec` of the decoded command in the state with the cycle's input sampled, and
then port X's part of the edge; where port X presents nothing, or there is none, that part only shows no response there. -/
def Obligations.StepRunsTheCommandOnPortF : Prop :=
  ∀ (s t : State) (inp : CycleInput) (rest : List CycleInput) (i : Instr),
    s.inputs = inp :: rest → inp.rst = false → inp.f.valid = true → decodeF s.inst.dw inp.f.cmd = i →
    exec i (s.setInputs rest) = .next t →
    (s.inst.xport = false → step s = .next t) ∧
    (s.inst.xport = true → inp.x.valid = false → step s = .next (noResponse .x t)) ∧
    (s.inst.xport = true → inp.x.valid = true → xReady inp = false → step s = .next (noResponse .x t)) ∧
    (s.inst.xport = true → inp.x.valid = true → xReady inp = true →
      step s = exec (decodeX t.inst.dw inp.x.cmd) t)

/-- A step after `withFetchWord` runs the command the decoder reads from the table's word. -/
def Obligations.FetchedWordRuns : Prop :=
  ∀ (s t : State) (nbits w : Nat) (i : Instr),
    s.inst.Wf → decodeTableWord nbits w = some i → exec i (s.setInputs s.inputs.tail) = .next t →
    step (s.withFetchWord nbits w) = .next (noResponseX t)

/-- The cycle function of R137: reset wins over everything presented and leaves the reset state of R32 with no response; otherwise
the accepted F command executes, then the accepted X command in the state F left, and a port without an accepted
command shows no response. -/
def Obligations.CycleFunction : Prop :=
  ∀ (s : State) (inp : CycleInput),
    (inp.rst = true → ∃ t, cycle inp s = .next t ∧ t.initialized = false ∧ t.capacity = 0 ∧ t.writeCursor = 0 ∧
      t.readCursor = 0 ∧ t.count = 0 ∧ (∀ i : Nat, t.storage.read i = none) ∧ t.fRsp.valid = false ∧
      (s.inst.xport = true → t.xRsp.valid = false)) ∧
    (inp.rst = false → ∀ s₁ s₂ : State,
      (acceptedF inp = true → exec (decodeF s.inst.dw inp.f.cmd) s = .next s₁) →
      (acceptedF inp = false → s₁ = noResponse .f s) →
      (acceptedX s₁.inst inp = true → exec (decodeX s₁.inst.dw inp.x.cmd) s₁ = .next s₂) →
      (acceptedX s₁.inst inp = false → s₂ = noResponseX s₁) →
      cycle inp s = .next s₂)

/-- The machine never stops: every step has a next state (R148: it is ready for another command in every cycle), and the
instance's parameters are the same after it (R34). -/
def Obligations.EveryStepHasANextState : Prop :=
  ∀ s : State, ∃ t, step s = .next t ∧ t.inst = s.inst ∧ t.inputs = s.inputs.tail

/-- `Exec` is total: every command, in every state, completes and is answered on its port; the other port, the parameters and
the coming inputs are untouched (R71). -/
def Obligations.EveryCommandCompletes : Prop :=
  ∀ (i : Instr) (s : State), ∃ t, exec i s = .next t ∧ (t.rsp i.port).valid = true ∧
    t.rsp (otherPort i.port) = s.rsp (otherPort i.port) ∧ t.inst = s.inst ∧ t.inputs = s.inputs

/-! ## State, invariants, reset (spec/10_state.md, spec/70_reset_and_hazards.md) -/

/-- The registers and pins right after reset, on every instance, and that no slot has a promised value (R32). Status
and data of the response registers are unspecified there, so nothing is said of them. -/
def Obligations.ResetState : Prop :=
  ∀ c : Instance, (State.resetOf c).initialized = false ∧ (State.resetOf c).capacity = 0 ∧
    (State.resetOf c).writeCursor = 0 ∧ (State.resetOf c).readCursor = 0 ∧ (State.resetOf c).count = 0 ∧
    (∀ i : Nat, (State.resetOf c).storage.read i = none) ∧
    (State.resetOf c).fRsp.valid = false ∧ (State.resetOf c).xRsp.valid = false ∧
    initializedPin (State.resetOf c) = false ∧ emptyPin (State.resetOf c) = false ∧ fullPin (State.resetOf c) = false

/-- An edge with `rst == 1`, in any state and whatever is presented, leaves the reset state in the registers, promises no slot's
value, and shows no response on a port the instance has (R132, R145). -/
def Obligations.ResetEdgeWins : Prop :=
  ∀ (s : State) (inp : CycleInput) (rest : List CycleInput), s.inputs = inp :: rest → inp.rst = true →
    ∃ t, step s = .next t ∧ t.initialized = false ∧ t.capacity = 0 ∧ t.writeCursor = 0 ∧ t.readCursor = 0 ∧ t.count = 0 ∧
      (∀ i : Nat, t.storage.read i = none) ∧ t.fRsp.valid = false ∧ (s.inst.xport = true → t.xRsp.valid = false) ∧
      initializedPin t = false ∧ emptyPin t = false ∧ fullPin t = false ∧ t.inst = s.inst ∧ t.inputs = rest

/-- The reset state of every legal instance meets the invariant. -/
def Obligations.ResetMeetsTheInvariant : Prop := (∀ c : Instance, c.Wf → StateInv (State.resetOf c)) ∧ StateInv State.reset

/-- Every step keeps the invariant: cursors below `capacity`, `count` at most `capacity`, the cursor-count relation, the
canonical uninitialized state, the canonical storage with only slots below `capacity` written, every occupied slot written,
element widths, and no status code 7. -/
def Obligations.StepKeepsTheInvariant : Prop := ∀ s t : State, StateInv s → step s = .next t → StateInv t

/-- In every state that any sequence of inputs reaches from reset, on any legal instance: `capacity`, the cursors, `count` and
their relation are as R15, R20, R21 and R24 say when initialized, and all 0 otherwise (R30). -/
def Obligations.ReachableRegistersAreInRange : Prop :=
  ∀ (c : Instance) (inputs : List CycleInput) (n : Nat) (t : State), c.Wf →
    runCycles n ((State.resetOf c).setInputs inputs) = .next t →
    (t.initialized = true →
      t.writeCursor.toNat < t.capacity.toNat ∧ t.readCursor.toNat < t.capacity.toNat ∧
      t.writeCursor.toNat = (t.readCursor.toNat + t.count.toNat) % t.capacity.toNat ∧
      1 ≤ t.capacity.toNat ∧ t.capacity.toNat ≤ c.depth ∧ t.count.toNat ≤ t.capacity.toNat) ∧
    (t.initialized = false → t.capacity = 0 ∧ t.writeCursor = 0 ∧ t.readCursor = 0 ∧ t.count = 0)

/-- Consequences of the cursor-count relation: equal cursors mean empty or full; the predicates can be read off `count`; they
are never both true; a buffer of one slot is always one of the two, with both cursors 0 (R25). -/
def Obligations.EmptyAndFullFromCount : Prop :=
  ∀ s : State, BufferInv s → s.initialized = true →
    (s.writeCursor = s.readCursor ↔ s.count = 0 ∨ s.count = s.capacity) ∧
    (isEmpty s = true ↔ s.count = 0) ∧ (isFull s = true ↔ s.count = s.capacity) ∧
    ¬(isEmpty s = true ∧ isFull s = true) ∧
    (s.capacity = 1 → (s.count = 0 ∨ s.count = 1) ∧ s.writeCursor = 0 ∧ s.readCursor = 0)

/-- `count` goes up by 1 on a successful ENQUEUE, down by 1 on a successful DEQUEUE, to 0 on CREATE and on reset, and no other
command changes it; it stays in `[0, capacity]` (R21). -/
def Obligations.CountLaw : Prop :=
  (∀ (i : Instr) (s t : State), BufferInv s → exec i s = .next t →
    t.count.toNat ≤ t.capacity.toNat ∧
    (isCreate i = true → t.count = 0) ∧
    (∀ v : Element, i = .enqueue v → t.fRsp.status = Status.code .ok → t.count.toNat = s.count.toNat + 1) ∧
    (i = .dequeue → t.fRsp.status = Status.code .ok → t.count.toNat + 1 = s.count.toNat) ∧
    (isCreate i = false → ¬((∃ v : Element, i = .enqueue v) ∧ t.fRsp.status = Status.code .ok) →
      ¬(i = .dequeue ∧ t.fRsp.status = Status.code .ok) → t.count = s.count)) ∧
  (∀ s : State, (resetEdge s).count = 0 ∧ (resetEdge s).capacity = 0)

/-- Which command writes which part of the state (the written columns of R33), and the frame of every command: outside the
named commands each register keeps its value; a command that stores writes only the slot its effective index names, and every
other command but CREATE leaves every slot as it reads; the other port's response registers are untouched. -/
def Obligations.FrameOfEveryCommand : Prop :=
  ∀ (i : Instr) (s t : State), exec i s = .next t →
    (isCreate i = false → t.initialized = s.initialized ∧ t.capacity = s.capacity) ∧
    (isCreate i = false → (∀ v : Element, i ≠ .enqueue v) → t.writeCursor = s.writeCursor) ∧
    (isCreate i = false → i ≠ .dequeue → t.readCursor = s.readCursor) ∧
    (isCreate i = false → (∀ v : Element, i ≠ .enqueue v) → i ≠ .dequeue → t.count = s.count) ∧
    (isCreate i = false → ∀ a : Nat, storeIndex i s ≠ some a → t.storage.read a = s.storage.read a) ∧
    t.rsp (otherPort i.port) = s.rsp (otherPort i.port) ∧ t.inst = s.inst ∧ t.inputs = s.inputs

/-- `initialized` and `capacity` change only at reset and by a CREATE accepted on port F; whatever port X presents they stay
(R14, R15, R151). -/
def Obligations.OnlyCreateAndResetWriteControl : Prop :=
  ∀ (s t : State) (inp : CycleInput), cycle inp s = .next t → inp.rst = false →
    ¬(inp.f.valid = true ∧ inp.f.cmd.op = 1) → t.initialized = s.initialized ∧ t.capacity = s.capacity

/-! ## Storage (spec/20_memory.md) -/

/-- A write is visible to the very next command: after a WRITE_AT that succeeds, READ_AT of the same index on either port
answers `OK` with the value written (R36, R37, R46). -/
def Obligations.WriteIsVisibleToTheNextRead : Prop :=
  ∀ (s : State) (idx : Reg16) (v : Element), s.initialized = true → idx.toNat < s.capacity.toNat →
    ∃ t, exec (.writeAt idx v) s = .next t ∧ RepliesWith (.readAt idx) t .ok v ∧ RepliesWith (.xReadAt idx) t .ok v ∧
      ∃ u, exec (.xWriteAt idx v) s = .next u ∧ RepliesWith (.readAt idx) u .ok v ∧ RepliesWith (.xReadAt idx) u .ok v

/-- A slot keeps its value when it is dequeued: READ_AT of the index the DEQUEUE read gives the element it returned (R42). -/
def Obligations.DequeuedSlotKeepsItsValue : Prop :=
  ∀ s : State, StateInv s → s.initialized = true → s.count ≠ 0 →
    ∃ (t : State) (v : Element), exec .dequeue s = .next t ∧ t.fRsp.data = v ∧ t.fRsp.status = Status.code .ok ∧
      RepliesWith (.readAt (dequeueIndex s)) t .ok v

/-- The byte layout of R39: the bytes drawn for a canonical storage are exactly, for each element `v` of a written slot `i`
and each `b < EW`, bits `[8b+7 : 8b]` of `v` at offset `i * EW + b`. -/
def Obligations.ByteLayoutIsLittleEndian : Prop :=
  ∀ (ew : Nat) (m : Memory) (a : Nat) (x : BitVec 8), Memory.wf m = true →
    ((a, x) ∈ byteLayout ew m ↔
      ∃ (i b : Nat) (v : Element), m.read i = some v ∧ b < ew ∧ a = i * ew + b ∧
        ∀ k : Nat, k < 8 → x.getLsbD k = v.testBit (8 * b + k))

/-! ## CREATE, NOP, illegal commands (spec/40_create.md) -/

/-- CREATE `cap` (R72), in any state (R73), from opcode 1 with its capacity in `arg`. With `1 <= cap <= DEPTH`: `OK`,
`initialized = 1`, `capacity = cap`, cursors and `count` 0, no slot with a promised value, pins 1, 1, 0. Otherwise
`AllocationFailed` and the canonical uninitialized state, pins 0. -/
def Obligations.CreateMakesOrRefusesABuffer : Prop :=
  ∀ (s : State) (cap : Reg16),
    (∀ (dw : Nat) (d : Element), decodeF dw ⟨1, cap, d⟩ = .create cap) ∧
    (cap.toNat ≠ 0 → cap.toNat ≤ s.inst.depth →
      ∃ t, exec (.create cap) s = .next t ∧ Answers .f .ok s t ∧ t.initialized = true ∧ t.capacity = cap ∧
        t.writeCursor = 0 ∧ t.readCursor = 0 ∧ t.count = 0 ∧ (∀ i : Nat, t.storage.read i = none) ∧
        initializedPin t = true ∧ emptyPin t = true ∧ fullPin t = false) ∧
    ((cap.toNat = 0 ∨ s.inst.depth < cap.toNat) →
      ∃ t, exec (.create cap) s = .next t ∧ Answers .f .allocationFailed s t ∧ t.initialized = false ∧ t.capacity = 0 ∧
        t.writeCursor = 0 ∧ t.readCursor = 0 ∧ t.count = 0 ∧ (∀ i : Nat, t.storage.read i = none) ∧
        initializedPin t = false ∧ emptyPin t = false ∧ fullPin t = false)

/-- NOP (R75), opcode 0 on either port, whatever the other fields hold: it answers `OK` in every state and changes nothing. -/
def Obligations.NopOnlyAnswersOk : Prop :=
  (∀ (dw : Nat) (a : Reg16) (d : Element), decodeF dw ⟨0, a, d⟩ = .nop ∧ decodeX dw ⟨0, a, d⟩ = .xNop) ∧
  ∀ (s : State) (i : Instr), i = .nop ∨ i = .xNop →
    ∃ t, exec i s = .next t ∧ Answers i.port .ok s t ∧ SameRegisters s t ∧ SameStorage s t

/-- A reserved opcode, 8 to 15, on either port (R76), and on port X every opcode but NOP's, WRITE_AT's and READ_AT's (R103),
answers `IllegalCommand` in every state and changes nothing. -/
def Obligations.IllegalCommandsOnlyAnswer : Prop :=
  (∀ (dw : Nat) (op : Opcode) (a : Reg16) (d : Element), 8 ≤ op.toNat →
    decodeF dw ⟨op, a, d⟩ = .illegal op ∧ decodeX dw ⟨op, a, d⟩ = .xIllegal op) ∧
  ∀ (s : State) (i : Instr),
    (∃ op : Opcode, i = .illegal op ∨ i = .xIllegal op) ∨ i = .xIllegalCreate ∨ i = .xIllegalEnqueue ∨
      i = .xIllegalDequeue ∨ i = .xIllegalIsEmpty ∨ i = .xIllegalIsFull →
    ∃ t, exec i s = .next t ∧ FailsWith i.port .illegalCommand s t

/-! ## ENQUEUE, DEQUEUE (spec/41_fifo.md) -/

/-- The two forms of `IncMod` agree where it is defined, its value is a legal cursor and the sum fits 16 bits (R77); and where the
cursor-count relation holds, an initialized buffer's cursors advance by it: the model's free value for an undefined
`IncMod` (notes/assumptions/6.md) is not reached. -/
def Obligations.IncModTwoForms : Prop :=
  (∀ c n : Reg16, c.toNat < n.toNat →
    (incMod c n).toNat = (c.toNat + 1) % n.toNat ∧
    incMod c n = (if c.toNat + 1 = n.toNat then 0 else c + 1) ∧
    (incMod c n).toNat < n.toNat ∧ c.toNat + 1 ≤ 65535) ∧
  (∀ s : State, BufferInv s → s.initialized = true →
    1 ≤ s.capacity.toNat ∧ nextCursor s s.writeCursor = incMod s.writeCursor s.capacity ∧
    nextCursor s s.readCursor = incMod s.readCursor s.capacity)

/-- ENQUEUE `v` (R78), from opcode 2 with its element in `wdata`: `NotInitialized`, else `Full`, and nothing else changes; else the
element is stored at the old `writeCursor`, which advances modulo `capacity`, and `count` goes up by 1. -/
def Obligations.EnqueueAppendsOrFails : Prop :=
  (∀ (dw : Nat) (a : Reg16) (d : Element), decodeF dw ⟨2, a, d⟩ = .enqueue (d % 2 ^ dw)) ∧
  ∀ (s : State) (v : Element),
    (s.initialized = false → ∃ t, exec (.enqueue v) s = .next t ∧ FailsWith .f .notInitialized s t) ∧
    (s.initialized = true → s.count = s.capacity → s.writeCursor = s.readCursor →
      ∃ t, exec (.enqueue v) s = .next t ∧ FailsWith .f .full s t) ∧
    (s.initialized = true → ¬(s.count = s.capacity ∧ s.writeCursor = s.readCursor) → BufferInv s →
      ∃ t, exec (.enqueue v) s = .next t ∧ Answers .f .ok s t ∧
        t.storage.read (enqueueIndex s).toNat = some v ∧
        (∀ a : Nat, a ≠ (enqueueIndex s).toNat → t.storage.read a = s.storage.read a) ∧
        t.writeCursor.toNat = (s.writeCursor.toNat + 1) % s.capacity.toNat ∧ t.count.toNat = s.count.toNat + 1 ∧
        t.readCursor = s.readCursor ∧ t.capacity = s.capacity ∧ t.initialized = true ∧
        emptyPin t = false ∧ (fullPin t = true ↔ t.count = s.capacity))

/-- DEQUEUE (R80), opcode 3: `NotInitialized`, else `Empty`, and nothing else changes; else the answer carries the element at the old
`readCursor`, which advances modulo `capacity`, and `count` goes down by 1; no slot changes. -/
def Obligations.DequeueRemovesOrFails : Prop :=
  (∀ (dw : Nat) (a : Reg16) (d : Element), decodeF dw ⟨3, a, d⟩ = .dequeue) ∧
  ∀ s : State,
    (s.initialized = false → ∃ t, exec .dequeue s = .next t ∧ FailsWith .f .notInitialized s t) ∧
    (s.initialized = true → s.count = 0 → s.writeCursor = s.readCursor →
      ∃ t, exec .dequeue s = .next t ∧ FailsWith .f .empty s t) ∧
    (s.initialized = true → ¬(s.count = 0 ∧ s.writeCursor = s.readCursor) → BufferInv s →
      ∃ t, exec .dequeue s = .next t ∧ Answers .f .ok s t ∧
        (∀ v : Element, s.storage.read (dequeueIndex s).toNat = some v → t.fRsp.data = v) ∧
        t.readCursor.toNat = (s.readCursor.toNat + 1) % s.capacity.toNat ∧ t.count.toNat + 1 = s.count.toNat ∧
        t.writeCursor = s.writeCursor ∧ t.capacity = s.capacity ∧ t.initialized = true ∧ SameStorage s t ∧
        fullPin t = false ∧ (emptyPin t = true ↔ t.count = 0))

/-- ENQUEUE and DEQUEUE on the logical queue (R88): ENQUEUE appends, or answers `Full` on a full one; DEQUEUE answers `OK` with
the head and leaves the tail, or answers `Empty` on an empty one. -/
def Obligations.FifoCommandsRefineTheQueue : Prop :=
  ∀ s : State, StateInv s → s.initialized = true →
    (∀ v : Element, (queue s).length < s.capacity.toNat →
      ∃ t, exec (.enqueue v) s = .next t ∧ Answers .f .ok s t ∧ queue t = queue s ++ [some v]) ∧
    (∀ v : Element, (queue s).length = s.capacity.toNat →
      ∃ t, exec (.enqueue v) s = .next t ∧ Answers .f .full s t ∧ queue t = queue s) ∧
    (∀ (h : Option Element) (rest : List (Option Element)), queue s = h :: rest →
      ∃ (t : State) (d : Element), h = some d ∧ exec .dequeue s = .next t ∧ Answers .f .ok s t ∧ t.fRsp.data = d ∧
        queue t = rest) ∧
    (queue s = [] → ∃ t, exec .dequeue s = .next t ∧ Answers .f .empty s t ∧ queue t = [])

/-- The FIFO law (R84): over any sequence of commands without CREATE and WRITE_AT, what was queued and then what was enqueued is what
was dequeued and then what is still queued, in the same order; and from a new buffer, `n` ENQUEUEs and `n` DEQUEUEs, `n <= cap`,
all answer `OK` and return the values in order. -/
def Obligations.FifoLaw : Prop :=
  (∀ (is : List Instr) (s t : State), BufferInv s → OccupiedInv s → s.initialized = true →
    (∀ i ∈ is, isCreate i = false ∧ isWriteAt i = false) → execAll is s = .next t →
    queue s ++ (enqueued is s).map some = (dequeued is s).map some ++ queue t) ∧
  (∀ (s : State) (cap : Reg16) (vs : List Element), cap.toNat ≠ 0 → cap.toNat ≤ s.inst.depth →
    vs.length ≤ cap.toNat →
    ((responses (.create cap :: vs.map .enqueue ++ List.replicate vs.length .dequeue) s).map (·.status) =
      List.replicate (2 * vs.length + 1) (Status.code .ok)) ∧
    ((responses (.create cap :: vs.map .enqueue ++ List.replicate vs.length .dequeue) s).drop (vs.length + 1)).map
      (·.data) = vs)

/-- Fill and drain (R85): after a CREATE of `cap` slots, `cap` ENQUEUEs all answer `OK` and leave the buffer full, every further one
answers `Full` and changes nothing; then `cap` DEQUEUEs all answer `OK` and leave it empty, and every further one answers
`Empty` and changes nothing. -/
def Obligations.FillAndDrain : Prop :=
  ∀ (s : State) (cap : Reg16) (vs ws : List Element) (k : Nat), cap.toNat ≠ 0 → cap.toNat ≤ s.inst.depth →
    vs.length = cap.toNat →
    ((responses (.create cap :: vs.map .enqueue ++ ws.map .enqueue ++ List.replicate vs.length .dequeue ++
        List.replicate k .dequeue) s).map (·.status) =
      List.replicate (vs.length + 1) (Status.code .ok) ++ List.replicate ws.length (Status.code .full) ++
        List.replicate vs.length (Status.code .ok) ++ List.replicate k (Status.code .empty)) ∧
    (∃ t u, execAll (.create cap :: vs.map .enqueue) s = .next t ∧ fullPin t = true ∧
      execAll (ws.map .enqueue) t = .next u ∧ SameBuffer t u ∧
      ∃ t' u', execAll (List.replicate vs.length .dequeue) u = .next t' ∧ emptyPin t' = true ∧
        execAll (List.replicate k .dequeue) t' = .next u' ∧ SameBuffer t' u')

/-- The cursor law (R86): after a CREATE of `cap` slots and any sequence of commands without another CREATE, with `E` successful
ENQUEUEs and `D` successful DEQUEUEs, `writeCursor = E mod cap`, `readCursor = D mod cap` and `count = E - D`. -/
def Obligations.CursorLaw : Prop :=
  ∀ (s t : State) (cap : Reg16) (is : List Instr), cap.toNat ≠ 0 → cap.toNat ≤ s.inst.depth →
    (∀ i ∈ is, isCreate i = false) → execAll (.create cap :: is) s = .next t →
    t.writeCursor.toNat = (enqueued (.create cap :: is) s).length % cap.toNat ∧
    t.readCursor.toNat = (dequeued (.create cap :: is) s).length % cap.toNat ∧
    t.count.toNat + (dequeued (.create cap :: is) s).length = (enqueued (.create cap :: is) s).length

/-! ## WRITE_AT, READ_AT (spec/42_indexed.md) -/

/-- WRITE_AT `idx, v` on either port (R90), from opcode 4: `NotInitialized`, else `IndexOutOfRange`, and nothing else changes; else
slot `idx` holds `v`, every other slot reads as before, and no register and no pin changes. -/
def Obligations.WriteAtStoresOneSlot : Prop :=
  (∀ (dw : Nat) (idx : Reg16) (d : Element), decodeF dw ⟨4, idx, d⟩ = .writeAt idx (d % 2 ^ dw) ∧
    decodeX dw ⟨4, idx, d⟩ = .xWriteAt idx (d % 2 ^ dw)) ∧
  ∀ (s : State) (idx : Reg16) (v : Element) (i : Instr), i = .writeAt idx v ∨ i = .xWriteAt idx v →
    (s.initialized = false → ∃ t, exec i s = .next t ∧ FailsWith i.port .notInitialized s t) ∧
    (s.initialized = true → s.capacity.toNat ≤ idx.toNat →
      ∃ t, exec i s = .next t ∧ FailsWith i.port .indexOutOfRange s t) ∧
    (s.initialized = true → idx.toNat < s.capacity.toNat →
      ∃ t, exec i s = .next t ∧ Answers i.port .ok s t ∧ t.storage.read (absoluteIndex idx).toNat = some v ∧
        (∀ a : Nat, a ≠ (absoluteIndex idx).toNat → t.storage.read a = s.storage.read a) ∧ SameRegisters s t ∧
        emptyPin t = emptyPin s ∧ fullPin t = fullPin s ∧ initializedPin t = initializedPin s)

/-- READ_AT `idx` on either port (R92), from opcode 5: `NotInitialized`, else `IndexOutOfRange`; else `OK` with the slot's value where
it has been written, and `OK` with some `DW`-bit value where it has not (R93). Nothing but the response changes on any
outcome. -/
def Obligations.ReadAtReturnsTheSlot : Prop :=
  (∀ (dw : Nat) (idx : Reg16) (d : Element), decodeF dw ⟨5, idx, d⟩ = .readAt idx ∧
    decodeX dw ⟨5, idx, d⟩ = .xReadAt idx) ∧
  ∀ (s : State) (idx : Reg16) (i : Instr), i = .readAt idx ∨ i = .xReadAt idx →
    (s.initialized = false → ∃ t, exec i s = .next t ∧ FailsWith i.port .notInitialized s t) ∧
    (s.initialized = true → s.capacity.toNat ≤ idx.toNat →
      ∃ t, exec i s = .next t ∧ FailsWith i.port .indexOutOfRange s t) ∧
    (s.initialized = true → idx.toNat < s.capacity.toNat →
      ∃ t, exec i s = .next t ∧ Answers i.port .ok s t ∧ SameRegisters s t ∧ SameStorage s t ∧
        (∀ v : Element, s.storage.read (absoluteIndex idx).toNat = some v → (t.rsp i.port).data = v) ∧
        (s.storage.read (absoluteIndex idx).toNat = none → (t.rsp i.port).data < 2 ^ s.inst.dw))

/-- The indexed commands on the logical queue (R94), on either port. With `k` the distance of slot `idx` ahead of `readCursor`:
WRITE_AT replaces element `k` of the queue where `k < count` and leaves the queue alone otherwise; its length, the
registers and pins stay, and the invariants hold; READ_AT leaves the queue alone and returns element `k` where `k < count`,
else what the slot holds. -/
def Obligations.IndexedCommandsOnTheQueue : Prop :=
  ∀ (s : State) (idx : Reg16) (v : Element) (i : Instr), StateInv s → s.initialized = true →
    idx.toNat < s.capacity.toNat →
    (i = .writeAt idx v ∨ i = .xWriteAt idx v →
      ∃ t, exec i s = .next t ∧ Answers i.port .ok s t ∧
        queue t = (if aheadOfReadCursor s idx < s.count.toNat then (queue s).set (aheadOfReadCursor s idx) (some v)
          else queue s) ∧
        (queue t).length = (queue s).length ∧ SameRegisters s t ∧ emptyPin t = emptyPin s ∧ fullPin t = fullPin s ∧
        BufferInv t) ∧
    (i = .readAt idx ∨ i = .xReadAt idx →
      ∃ t, exec i s = .next t ∧ Answers i.port .ok s t ∧ queue t = queue s ∧
        (aheadOfReadCursor s idx < s.count.toNat →
          (queue s)[aheadOfReadCursor s idx]? = some (some (t.rsp i.port).data)) ∧
        (∀ w : Element, s.storage.read idx.toNat = some w → (t.rsp i.port).data = w))

/-! ## IS_EMPTY, IS_FULL, pins (spec/43_status.md) -/

/-- IS_EMPTY (R96), opcode 6, and IS_FULL (R97), opcode 7: `NotInitialized`, else `OK` with the predicate in bit 0 and 0 in the bits
above; nothing but the response changes. -/
def Obligations.StatusCommandsReportThePredicates : Prop :=
  (∀ (dw : Nat) (a : Reg16) (d : Element), decodeF dw ⟨6, a, d⟩ = .isEmpty ∧ decodeF dw ⟨7, a, d⟩ = .isFull) ∧
  ∀ s : State,
    (s.initialized = false →
      (∃ t, exec .isEmpty s = .next t ∧ FailsWith .f .notInitialized s t) ∧
      (∃ t, exec .isFull s = .next t ∧ FailsWith .f .notInitialized s t)) ∧
    (s.initialized = true →
      (∃ t, exec .isEmpty s = .next t ∧ Answers .f .ok s t ∧ SameRegisters s t ∧ SameStorage s t ∧
        t.fRsp.data = (if s.count = 0 ∧ s.writeCursor = s.readCursor then 1 else 0)) ∧
      (∃ t, exec .isFull s = .next t ∧ Answers .f .ok s t ∧ SameRegisters s t ∧ SameStorage s t ∧
        t.fRsp.data = (if s.count = s.capacity ∧ s.writeCursor = s.readCursor then 1 else 0)))

/-- Purity (R101): IS_EMPTY and IS_FULL change no register and no slot on any outcome; asked again in any state with the same
registers, either gives the same status and, where it is `OK`, the same answer. -/
def Obligations.StatusCommandsArePure : Prop :=
  ∀ (i : Instr) (s s' t t' : State), i = .isEmpty ∨ i = .isFull → exec i s = .next t → exec i s' = .next t' →
    SameBuffer s t ∧
    (SameRegisters s s' → t'.fRsp.status = t.fRsp.status ∧
      (t.fRsp.status = Status.code .ok → t'.fRsp.data = t.fRsp.data))

/-- The status pins as functions of the registers (R99), 0 after reset. -/
def Obligations.StatusPins : Prop :=
  (∀ s : State, initializedPin s = s.initialized ∧
    (emptyPin s = true ↔ s.initialized = true ∧ s.count = 0 ∧ s.writeCursor = s.readCursor) ∧
    (fullPin s = true ↔ s.initialized = true ∧ s.count = s.capacity ∧ s.writeCursor = s.readCursor)) ∧
  initializedPin State.reset = false ∧ emptyPin State.reset = false ∧ fullPin State.reset = false

/-- The truth table of R100, row by row: the pins, the answers of IS_EMPTY and IS_FULL, and what the next ENQUEUE and the next
DEQUEUE answer. -/
def Obligations.FlagTruthTable : Prop :=
  ∀ (s : State) (v : Element), BufferInv s →
    (s.initialized = false → emptyPin s = false ∧ fullPin s = false ∧ Replies .isEmpty s .notInitialized ∧
      Replies .isFull s .notInitialized ∧ Replies (.enqueue v) s .notInitialized ∧ Replies .dequeue s .notInitialized) ∧
    (s.initialized = true → s.count = 0 → emptyPin s = true ∧ fullPin s = false ∧ RepliesWith .isEmpty s .ok 1 ∧
      RepliesWith .isFull s .ok 0 ∧ Replies (.enqueue v) s .ok ∧ Replies .dequeue s .empty) ∧
    (s.initialized = true → s.count ≠ 0 → s.count ≠ s.capacity → 2 ≤ s.capacity.toNat ∧ emptyPin s = false ∧
      fullPin s = false ∧ RepliesWith .isEmpty s .ok 0 ∧ RepliesWith .isFull s .ok 0 ∧ Replies (.enqueue v) s .ok ∧
      Replies .dequeue s .ok) ∧
    (s.initialized = true → s.count = s.capacity → emptyPin s = false ∧ fullPin s = true ∧ RepliesWith .isEmpty s .ok 0 ∧
      RepliesWith .isFull s .ok 1 ∧ Replies (.enqueue v) s .full ∧ Replies .dequeue s .ok)

/-! ## Port X and the arbiter (spec/44_arbiter.md) -/

/-- `ExecX` (R103): on port X the opcodes of NOP, WRITE_AT and READ_AT do what they do on port F, with the response on port X; every
other opcode answers `IllegalCommand` there and changes nothing; no command of port X changes a register of R13. Response
data is compared where it is promised only. -/
def Obligations.PortXIsTheIndexedSubset : Prop :=
  ∀ (s : State) (c : Command),
    ((c.op = 0 ∨ c.op = 4 ∨ c.op = 5) →
      ∃ tf tx, exec (decodeF s.inst.dw c) s = .next tf ∧ exec (decodeX s.inst.dw c) s = .next tx ∧
        SameBuffer tf tx ∧ tf.fRsp.valid = true ∧ tx.xRsp.valid = true ∧ tx.xRsp.status = tf.fRsp.status ∧
        tx.fRsp = s.fRsp ∧
        (c.op = 5 → tf.fRsp.status = Status.code .ok → ∀ v : Element, s.storage.read c.arg.toNat = some v →
          tf.fRsp.data = v ∧ tx.xRsp.data = v)) ∧
    (¬(c.op = 0 ∨ c.op = 4 ∨ c.op = 5) →
      ∃ tx, exec (decodeX s.inst.dw c) s = .next tx ∧ FailsWith .x .illegalCommand s tx) ∧
    (∃ tx, exec (decodeX s.inst.dw c) s = .next tx ∧ SameRegisters s tx)

/-- Which port of the storage memory an opcode needs (R105). -/
def Obligations.MemoryPortNeeds : Prop :=
  ∀ op : Opcode,
    (needF op = .write ↔ op = 2 ∨ op = 4) ∧ (needF op = .read ↔ op = 3 ∨ op = 5) ∧
    (needX op = .write ↔ op = 4) ∧ (needX op = .read ↔ op = 5)

/-- `x_ready` is 0 in exactly the four cases of R106, all with `f_valid == 1`. -/
def Obligations.XReadyFourCases : Prop :=
  ∀ inp : CycleInput, xReady inp = false ↔
    inp.f.valid = true ∧
      ((inp.f.cmd.op = 2 ∧ inp.x.cmd.op = 4) ∨ (inp.f.cmd.op = 4 ∧ inp.x.cmd.op = 4) ∨
        (inp.f.cmd.op = 3 ∧ inp.x.cmd.op = 5) ∨ (inp.f.cmd.op = 5 ∧ inp.x.cmd.op = 5))

/-- Acceptance (R107, R133): when the ports' commands are accepted; that an accepted command executes in that cycle, once; and that a
command that is not accepted has no effect and gets no response: the cycle is what it is with nothing presented there. -/
def Obligations.OnlyAcceptedCommandsAct : Prop :=
  (∀ inp : CycleInput, acceptedF inp = true ↔ inp.rst = false ∧ inp.f.valid = true) ∧
  (∀ (c : Instance) (inp : CycleInput), acceptedX c inp = true ↔
    c.xport = true ∧ inp.rst = false ∧ inp.x.valid = true ∧ xReady inp = true) ∧
  (∀ (s s₁ : State) (inp : CycleInput), acceptedF inp = true → exec (decodeF s.inst.dw inp.f.cmd) s = .next s₁ →
    cycle inp s = edgeX inp s₁) ∧
  (∀ (s s₁ : State) (inp : CycleInput), acceptedX s.inst inp = true → edgeF inp s = .next s₁ →
    cycle inp s = exec (decodeX s.inst.dw inp.x.cmd) s₁) ∧
  (∀ (s t : State) (inp : CycleInput), acceptedF inp = false → cycle inp s = .next t →
    cycle { inp with f := idlePins } s = .next t ∧ t.fRsp.valid = false) ∧
  (∀ (s t : State) (inp : CycleInput), acceptedX s.inst inp = false → cycle inp s = .next t →
    cycle { inp with x := idlePins } s = .next t ∧ (s.inst.xport = true → t.xRsp.valid = false))

/-- The same-slot, same-cycle cases of R108, on an instance with port X. -/
def Obligations.SameSlotSameCycle : Prop :=
  ∀ s : State, s.inst.xport = true → BufferInv s →
    (∀ (a : Reg16) (v w : Element), s.initialized = true → isFull s = false →
      ∃ t, cycle (presentBoth ⟨2, a, v⟩ ⟨5, s.writeCursor, w⟩) s = .next t ∧ t.fRsp.status = Status.code .ok ∧
        t.xRsp.status = Status.code .ok ∧ t.xRsp.data = v % 2 ^ s.inst.dw) ∧
    (∀ (a : Reg16) (v w old : Element), s.initialized = true → isEmpty s = false →
      s.storage.read s.readCursor.toNat = some old →
      ∃ t, cycle (presentBoth ⟨3, a, w⟩ ⟨4, s.readCursor, v⟩) s = .next t ∧ t.fRsp.status = Status.code .ok ∧
        t.fRsp.data = old ∧ t.xRsp.status = Status.code .ok ∧
        t.storage.read s.readCursor.toNat = some (v % 2 ^ s.inst.dw)) ∧
    (∀ (idx : Reg16) (v w : Element), s.initialized = true → idx.toNat < s.capacity.toNat →
      ∃ t, cycle (presentBoth ⟨4, idx, v⟩ ⟨5, idx, w⟩) s = .next t ∧ t.xRsp.status = Status.code .ok ∧
        t.xRsp.data = v % 2 ^ s.inst.dw) ∧
    (∀ (idx : Reg16) (v w old : Element), s.initialized = true → idx.toNat < s.capacity.toNat →
      s.storage.read idx.toNat = some old →
      ∃ t, cycle (presentBoth ⟨5, idx, w⟩ ⟨4, idx, v⟩) s = .next t ∧ t.fRsp.data = old ∧
        t.storage.read idx.toNat = some (v % 2 ^ s.inst.dw)) ∧
    (∀ (cap idx : Reg16) (v w : Element) (opx : Opcode), opx = 4 ∨ opx = 5 →
      ∃ t, cycle (presentBoth ⟨1, cap, w⟩ ⟨opx, idx, v⟩) s = .next t ∧
        (cap.toNat = 0 ∨ s.inst.depth < cap.toNat → t.xRsp.status = Status.code .notInitialized) ∧
        (cap.toNat ≠ 0 → cap.toNat ≤ s.inst.depth → cap.toNat ≤ idx.toNat →
          t.xRsp.status = Status.code .indexOutOfRange) ∧
        (cap.toNat ≠ 0 → cap.toNat ≤ s.inst.depth → idx.toNat < cap.toNat → t.xRsp.status = Status.code .ok))

/-- No fairness (R110): while port F presents, in every cycle, a command that needs the memory port the X command needs, the X command
is stalled: however many such cycles there are, none shows a response on port X, and only F's commands execute. -/
def Obligations.PortXCanStarve : Prop :=
  ∀ (s : State) (cfs : List Command) (cx : Command), s.inst.xport = true → cfs ≠ [] → needX cx.op ≠ .none →
    (∀ cf ∈ cfs, needF cf.op = needX cx.op) →
    ∃ t, runCycles cfs.length (s.setInputs (cfs.map fun cf => presentBoth cf cx)) = .next t ∧
      t.xRsp.valid = false ∧ t.fRsp.valid = true ∧
      serialised s.inst (cfs.map fun cf => presentBoth cf cx) = cfs.map (decodeF s.inst.dw)

/-- Port F is never stalled, delayed or altered by port X (R111). Whatever port X presents in a cycle, for the same draw of the
free values: F's command is accepted or not as before, F's response and the registers of R13 after the cycle are the same, and
so is every slot that no accepted X command stores to, F's store among them. With port X idle the instance answers on
port F, and holds its buffer, as the instance without port X does. -/
def Obligations.PortFIsNotAlteredByPortX : Prop :=
  (∀ (s t t' : State) (inp : CycleInput) (x : PortPins), cycle inp s = .next t →
    cycle { inp with x := x } s = .next t' →
    acceptedF { inp with x := x } = acceptedF inp ∧ t'.fRsp = t.fRsp ∧ SameRegisters t t' ∧
    ∀ a : Nat,
      (acceptedX s.inst inp = true → storeIndex (decodeX s.inst.dw inp.x.cmd) s ≠ some a) →
      (acceptedX s.inst { inp with x := x } = true → storeIndex (decodeX s.inst.dw x.cmd) s ≠ some a) →
      t'.storage.read a = t.storage.read a) ∧
  (∀ (s t t' : State) (inp : CycleInput), inp.x.valid = false → cycle inp s = .next t →
    cycle inp { s with inst := { s.inst with xport := false } } = .next t' → t'.fRsp = t.fRsp ∧ SameBuffer t t')

/-- Serialisation (R113): a run of cycles without reset leaves the buffer that the one sequence of its accepted commands, cycle by cycle
F then X, leaves; it shows that sequence's statuses in that order; and in both, each response carries the data R64 promises
for its command: of every successful IS_EMPTY and IS_FULL, and of every successful DEQUEUE and READ_AT of a written slot. -/
def Obligations.RunEqualsItsSerialisation : Prop :=
  ∀ (s t : State) (inputs : List CycleInput), BufferInv s → (∀ inp ∈ inputs, inp.rst = false) →
    runCycles inputs.length (s.setInputs inputs) = .next t →
    (∃ u, execAll (serialised s.inst inputs) s = .next u ∧ SameBuffer u t) ∧
    (shownResponses inputs.length (s.setInputs inputs)).map (·.status) =
      (responses (serialised s.inst inputs) s).map (·.status) ∧
    List.Forall₂ CarriesPromise (promises (serialised s.inst inputs) s) (shownResponses inputs.length (s.setInputs inputs)) ∧
    List.Forall₂ CarriesPromise (promises (serialised s.inst inputs) s) (responses (serialised s.inst inputs) s)

/-! ## Statuses (spec/60_exceptions.md) -/

/-- The status codes, and that no command answers with the reserved code 7 (R115). -/
def Obligations.StatusCodes : Prop :=
  Status.code .ok = 0 ∧ Status.code .allocationFailed = 1 ∧ Status.code .notInitialized = 2 ∧ Status.code .full = 3 ∧
  Status.code .empty = 4 ∧ Status.code .indexOutOfRange = 5 ∧ Status.code .illegalCommand = 6 ∧
  ∀ (i : Instr) (s t : State), exec i s = .next t → (t.rsp i.port).status ≠ 7

/-- The response word (R63): for data of `dw` bits, `3 + dw` bits with the data in bits `[dw-1:0]` and the status above it. -/
def Obligations.ResponseWordFields : Prop :=
  ∀ (dw : Nat) (r : Response), r.data < 2 ^ dw →
    responseWord dw r < 2 ^ (dw + 3) ∧ responseWord dw r / 2 ^ dw = r.status.toNat ∧ responseWord dw r % 2 ^ dw = r.data

/-- Which command returns which status, and exactly when (R116), in the order of tests of R119. -/
def Obligations.StatusCauses : Prop :=
  ∀ (i : Instr) (s t : State), exec i s = .next t → Answers i.port (expectedStatus i s) s t

/-- No partial mutation (R120): a command whose status is not `OK` changes no register and no slot, except a failing CREATE, which
leaves the canonical uninitialized state. -/
def Obligations.FailureChangesNothing : Prop :=
  ∀ (i : Instr) (s t : State), exec i s = .next t → (t.rsp i.port).status ≠ Status.code .ok →
    (isCreate i = false → SameRegisters s t ∧ SameStorage s t) ∧
    (isCreate i = true → t.initialized = false ∧ t.capacity = 0 ∧ t.writeCursor = 0 ∧ t.readCursor = 0 ∧ t.count = 0)

/-! ## Cycles (spec/70_reset_and_hazards.md) -/

/-- An idle cycle (R136): without reset and without an accepted command no register and no slot changes, and the response-valid
pins of the ports the instance has become 0. -/
def Obligations.IdleCycleChangesNothing : Prop :=
  ∀ (s : State) (inp : CycleInput) (rest : List CycleInput), s.inputs = inp :: rest → inp.rst = false →
    acceptedF inp = false → acceptedX s.inst inp = false →
    ∃ t, step s = .next t ∧ SameRegisters s t ∧ SameStorage s t ∧ t.fRsp.valid = false ∧
      (s.inst.xport = true → t.xRsp.valid = false)

/-- Response timing (R138): after an edge, a port's `rsp_valid` is 1 exactly where a command was accepted on it in that cycle,
and status and data are what `Exec` or `ExecX` gave that command. -/
def Obligations.ResponseAfterOneCycle : Prop :=
  ∀ s t : State, step s = .next t →
    (t.fRsp.valid = acceptedF (currentInput s)) ∧
    (acceptedF (currentInput s) = true → ∃ s₁,
      exec (decodeF s.inst.dw (currentInput s).f.cmd) (consumeInput s) = .next s₁ ∧ t.fRsp = s₁.fRsp) ∧
    (s.inst.xport = true → t.xRsp.valid = acceptedX s.inst (currentInput s)) ∧
    (acceptedX s.inst (currentInput s) = true → ∃ s₁,
      edgeF (currentInput s) (consumeInput s) = .next s₁ ∧
      exec (decodeX s.inst.dw (currentInput s).x.cmd) s₁ = .next t)

/-- A fresh controller (R135): right after reset each of the six commands that need a buffer, and X's WRITE_AT and READ_AT, answers
`NotInitialized`; each illegal command answers `IllegalCommand`; NOP answers `OK` on either port; a CREATE of an illegal
capacity answers `AllocationFailed`, after which the same holds again, and a CREATE of a legal capacity answers `OK`,
raises the `initialized` pin, and lets ENQUEUE answer `OK`. -/
def Obligations.BootSequence : Prop :=
  ∀ c : Instance,
    (∀ s : State, s = State.resetOf c ∨
        (∃ bad : Reg16, (bad.toNat = 0 ∨ c.depth < bad.toNat) ∧ exec (.create bad) (State.resetOf c) = .next s) →
      (∀ i : Instr, (∃ v : Element, i = .enqueue v) ∨ i = .dequeue ∨
          (∃ (idx : Reg16) (v : Element), i = .writeAt idx v ∨ i = .xWriteAt idx v) ∨
          (∃ idx : Reg16, i = .readAt idx ∨ i = .xReadAt idx) ∨ i = .isEmpty ∨ i = .isFull →
        Replies i s .notInitialized) ∧
      (∀ i : Instr, (∃ op : Opcode, i = .illegal op ∨ i = .xIllegal op) ∨ i = .xIllegalCreate ∨ i = .xIllegalEnqueue ∨
          i = .xIllegalDequeue ∨ i = .xIllegalIsEmpty ∨ i = .xIllegalIsFull →
        Replies i s .illegalCommand) ∧
      Replies .nop s .ok ∧ Replies .xNop s .ok ∧
      (∀ bad : Reg16, bad.toNat = 0 ∨ c.depth < bad.toNat → Replies (.create bad) s .allocationFailed) ∧
      (∀ (cap : Reg16) (v : Element), 1 ≤ cap.toNat → cap.toNat ≤ c.depth →
        ∃ t, exec (.create cap) s = .next t ∧ Answers .f .ok s t ∧ initializedPin t = true ∧
          Replies (.enqueue v) t .ok))

/-! ## Response data (spec/30_encoding.md), and two choices of the model's own -/

/-- Response data by command and status (R64): whatever a command answers, the data is the promised value where there is one; and in
a buffer that meets the register and occupancy invariants a successful DEQUEUE always has one. -/
def Obligations.ResponseDataWherePromised : Prop :=
  (∀ (i : Instr) (s t : State), exec i s = .next t → CarriesPromise (promisedData i s) (t.rsp i.port)) ∧
  (∀ s : State, BufferInv s → OccupiedInv s → expectedStatus .dequeue s = .ok → (promisedData .dequeue s).isSome = true)

/-- The model's choice (notes/assumptions/7.md): on an instance without port X no step touches the response registers that State holds
for it, whatever its pins would carry. -/
def Obligations.AbsentPortXIsUntouched : Prop :=
  ∀ s t : State, s.inst.xport = false → step s = .next t → t.xRsp = s.xRsp

/-- The model's choice (notes/assumptions/3.md): where no input is scheduled, the cycle is idle: no register and no slot changes, and no
port the instance has shows a response. -/
def Obligations.ExhaustedScheduleIsIdle : Prop :=
  ∀ s : State, s.inputs = [] →
    ∃ t, step s = .next t ∧ SameRegisters s t ∧ SameStorage s t ∧ t.fRsp.valid = false ∧
      (s.inst.xport = true → t.xRsp.valid = false) ∧ t.inst = s.inst ∧ t.inputs = []
end

