-- ==== Sys2Proof/Laws/Decode.lean ====
section
/-!
SUPPORT. The command word as a number: it fits the format, and its fields can be read back (spec/30_encoding.md R56).
-/
namespace Sys2Proof

/-- Three fields of 4, 16 and `dw` bits make a word of `dw + 20` bits (R56). -/
theorem wordOfCommand_lt (dw : Nat) (c : Command) : wordOfCommand dw c < 2 ^ (dw + 20) := by
  have hop := c.op.isLt
  have harg := c.arg.isLt
  have hd : c.wdata % 2 ^ dw < 2 ^ dw := Nat.mod_lt _ (Nat.two_pow_pos dw)
  have h₁ : c.op.toNat * 2 ^ (dw + 16) ≤ 15 * 2 ^ (dw + 16) := Nat.mul_le_mul_right _ (by omega)
  have h₂ : c.arg.toNat * 2 ^ dw ≤ 65535 * 2 ^ dw := Nat.mul_le_mul_right _ (by omega)
  have h₃ : 2 ^ (dw + 16) = 65536 * 2 ^ dw := by rw [Nat.pow_add]; omega
  have h₄ : 2 ^ (dw + 20) = 1048576 * 2 ^ dw := by rw [Nat.pow_add]; omega
  unfold wordOfCommand
  omega

/-- The opcode field of a word made of fields. -/
theorem commandOfWord_op (dw : Nat) (c : Command) : (commandOfWord dw (wordOfCommand dw c)).op = c.op := by
  have harg := c.arg.isLt
  have hop := c.op.isLt
  have hd : c.wdata % 2 ^ dw < 2 ^ dw := Nat.mod_lt _ (Nat.two_pow_pos dw)
  have h₂ : c.arg.toNat * 2 ^ dw ≤ 65535 * 2 ^ dw := Nat.mul_le_mul_right _ (by omega)
  have h₃ : 2 ^ (dw + 16) = 65536 * 2 ^ dw := by rw [Nat.pow_add]; omega
  have hq : wordOfCommand dw c / 2 ^ (dw + 16) = c.op.toNat := by
    unfold wordOfCommand
    rw [Nat.add_assoc, Nat.mul_comm, Nat.mul_add_div (Nat.two_pow_pos _), Nat.div_eq_of_lt (by omega)]
    rfl
  simp [commandOfWord, hq]

/-- The `arg` field of a word made of fields. -/
theorem commandOfWord_arg (dw : Nat) (c : Command) : (commandOfWord dw (wordOfCommand dw c)).arg = c.arg := by
  have harg := c.arg.isLt
  have hd : c.wdata % 2 ^ dw < 2 ^ dw := Nat.mod_lt _ (Nat.two_pow_pos dw)
  have h₃ : c.op.toNat * 2 ^ (dw + 16) = 2 ^ dw * (65536 * c.op.toNat) := by rw [Nat.pow_add]; ring
  have hq : wordOfCommand dw c / 2 ^ dw = 65536 * c.op.toNat + c.arg.toNat := by
    unfold wordOfCommand
    rw [h₃, Nat.mul_comm c.arg.toNat, ← Nat.mul_add, Nat.mul_add_div (Nat.two_pow_pos _), Nat.div_eq_of_lt hd]
    rfl
  apply BitVec.eq_of_toNat_eq
  simp only [commandOfWord, hq, BitVec.toNat_ofNat]
  omega

/-- The `wdata` field of a word made of fields: the low `dw` bits. -/
theorem commandOfWord_wdata (dw : Nat) (c : Command) :
    (commandOfWord dw (wordOfCommand dw c)).wdata = c.wdata % 2 ^ dw := by
  have h₃ : c.op.toNat * 2 ^ (dw + 16) = 2 ^ dw * (65536 * c.op.toNat) := by rw [Nat.pow_add]; ring
  show wordOfCommand dw c % 2 ^ dw = _
  unfold wordOfCommand
  rw [h₃, Nat.mul_comm c.arg.toNat, ← Nat.mul_add, Nat.mul_add_mod]
  exact Nat.mod_mod _ _

end Sys2Proof
end

