-- ==== Sys2Proof/Laws/Memory.lean ====
section
/-!
SUPPORT. The laws of the storage as data: read after write, the canonical form is kept, equal reads mean equal memories.
-/
namespace Sys2Proof.Machine

/-- Nothing is written in the empty storage. -/
@[simp] theorem Memory.read_nil (i : Nat) : Memory.read [] i = none := rfl

@[simp] theorem Memory.read_cons (c : Nat × Element) (m : Memory) (i : Nat) :
    Memory.read (c :: m) i = if c.1 = i then some c.2 else Memory.read m i := rfl

@[simp] theorem Memory.wf_nil : Memory.wf [] = true := rfl

theorem Memory.wf_tail {c : Nat × Element} {m : Memory} (h : Memory.wf (c :: m) = true) : Memory.wf m = true := by
  cases m with
  | nil => rfl
  | cons d m => exact (Bool.and_eq_true_iff.mp h).2

/-- In a canonical memory the first index is below all others. -/
theorem Memory.wf_head_lt {c : Nat × Element} {m : Memory} (h : Memory.wf (c :: m) = true) : ∀ d ∈ m, c.1 < d.1 := by
  induction m generalizing c with
  | nil => intro d hd; cases hd
  | cons e m ih =>
    have hce : c.1 < e.1 := of_decide_eq_true (Bool.and_eq_true_iff.mp h).1
    intro d hd
    rcases List.mem_cons.mp hd with rfl | hd
    · exact hce
    · exact Nat.lt_trans hce (ih (Memory.wf_tail h) d hd)

theorem Memory.wf_cons {c : Nat × Element} {m : Memory} (hm : Memory.wf m = true) (h : ∀ d ∈ m, c.1 < d.1) :
    Memory.wf (c :: m) = true := by
  cases m with
  | nil => rfl
  | cons d m => exact Bool.and_eq_true_iff.mpr ⟨decide_eq_true (h d List.mem_cons_self), hm⟩

/-- A read after a write to the same slot gives the value written. -/
@[simp] theorem Memory.read_write_same (m : Memory) (i : Nat) (v : Element) : (m.write i v).read i = some v := by
  induction m with
  | nil => simp [Memory.write]
  | cons c m ih =>
    unfold Memory.write
    split
    · simp
    · split
      · simp
      · rename_i h; simp [h, ih]

/-- A write leaves every other slot alone. -/
theorem Memory.read_write_other (m : Memory) {i j : Nat} (v : Element) (h : j ≠ i) :
    (m.write i v).read j = m.read j := by
  induction m with
  | nil => simp [Memory.write, Ne.symm h]
  | cons c m ih =>
    unfold Memory.write
    split
    · simp [Ne.symm h]
    · split
      · rename_i h₂; simp [Ne.symm h, h₂]
      · simp [ih]

/-- Both laws in one. -/
theorem Memory.read_write (m : Memory) (i j : Nat) (v : Element) :
    (m.write i v).read j = if j = i then some v else m.read j := by
  split
  · rename_i h; subst h; exact m.read_write_same j v
  · rename_i h; exact m.read_write_other v h

/-- An entry after a write is the one written or was there before. -/
theorem Memory.mem_write {m : Memory} {i : Nat} {v : Element} {c : Nat × Element} (h : c ∈ m.write i v) :
    c = (i, v) ∨ c ∈ m := by
  induction m with
  | nil => exact .inl (List.mem_singleton.mp h)
  | cons d m ih =>
    unfold Memory.write at h
    split at h
    · rcases List.mem_cons.mp h with h | h
      · exact .inl h
      · exact .inr h
    · split at h
      · rcases List.mem_cons.mp h with h | h
        · exact .inl h
        · exact .inr (List.mem_cons_of_mem _ h)
      · rcases List.mem_cons.mp h with h | h
        · exact .inr (h ▸ List.mem_cons_self)
        · exact (ih h).imp id (List.mem_cons_of_mem _)

/-- A write keeps the canonical form. -/
theorem Memory.wf_write {m : Memory} (h : Memory.wf m = true) (i : Nat) (v : Element) : Memory.wf (m.write i v) = true := by
  induction m with
  | nil => rfl
  | cons c m ih =>
    have hlt := Memory.wf_head_lt h
    unfold Memory.write
    split
    · rename_i hi
      refine Memory.wf_cons h fun d hd => ?_
      rcases List.mem_cons.mp hd with rfl | hd
      · exact hi
      · exact Nat.lt_trans hi (hlt d hd)
    · split
      · rename_i _ he
        exact Memory.wf_cons (Memory.wf_tail h) fun d hd => he ▸ hlt d hd
      · rename_i h₁ h₂
        refine Memory.wf_cons (ih (Memory.wf_tail h)) fun d hd => ?_
        rcases Memory.mem_write hd with rfl | hd
        · exact Nat.lt_of_le_of_ne (Nat.le_of_not_lt h₁) h₂
        · exact hlt d hd

/-- A read value is listed. -/
theorem Memory.mem_of_read {m : Memory} {i : Nat} {v : Element} (h : m.read i = some v) : (i, v) ∈ m := by
  induction m with
  | nil => cases h
  | cons c m ih =>
    rw [Memory.read_cons] at h
    split at h
    · rename_i hc; cases h; exact hc ▸ List.mem_cons_self
    · exact List.mem_cons_of_mem _ (ih h)

/-- In a canonical memory a listed value is read. -/
theorem Memory.read_of_mem {m : Memory} (hm : Memory.wf m = true) {i : Nat} {v : Element} (h : (i, v) ∈ m) :
    m.read i = some v := by
  induction m with
  | nil => cases h
  | cons c m ih =>
    rw [Memory.read_cons]
    rcases List.mem_cons.mp h with rfl | h
    · simp
    · rw [if_neg (Nat.ne_of_lt (Memory.wf_head_lt hm _ h)), ih (Memory.wf_tail hm) h]

/-- Below the first index of a canonical memory nothing is listed. -/
theorem Memory.read_of_lt_head {c : Nat × Element} {m : Memory} (h : Memory.wf (c :: m) = true) {i : Nat} (hi : i < c.1) :
    Memory.read (c :: m) i = none := by
  cases hr : Memory.read (c :: m) i with
  | none => rfl
  | some v =>
    rcases List.mem_cons.mp (Memory.mem_of_read hr) with rfl | hm
    · exact absurd hi (Nat.lt_irrefl _)
    · exact absurd (Memory.wf_head_lt h _ hm) (Nat.lt_asymm hi)

/-- Canonical memories that read the same everywhere are equal data. -/
theorem Memory.ext_of_read {m n : Memory} (hm : Memory.wf m = true) (hn : Memory.wf n = true)
    (h : ∀ i, m.read i = n.read i) : m = n := by
  induction m generalizing n with
  | nil =>
    cases n with
    | nil => rfl
    | cons d n => have := h d.1; simp at this
  | cons c m ih =>
    cases n with
    | nil => have := h c.1; simp at this
    | cons d n =>
      have hc := h c.1
      have hd := h d.1
      have hcd : c.1 = d.1 := by
        rcases Nat.lt_trichotomy c.1 d.1 with hlt | heq | hgt
        · rw [Memory.read_of_lt_head hn hlt] at hc; simp at hc
        · exact heq
        · rw [Memory.read_of_lt_head hm hgt] at hd; simp at hd
      have hv : c.2 = d.2 := by simpa [hcd] using hc
      have he : c = d := Prod.ext hcd hv
      subst he
      congr 1
      refine ih (Memory.wf_tail hm) (Memory.wf_tail hn) fun i => ?_
      have hi := h i
      simp only [Memory.read_cons] at hi
      by_cases hci : c.1 = i
      · have h₁ : Memory.read m i = none := by
          cases hr : Memory.read m i with
          | none => rfl
          | some v => exact absurd (Memory.wf_head_lt hm _ (Memory.mem_of_read hr)) (by simp [hci])
        have h₂ : Memory.read n i = none := by
          cases hr : Memory.read n i with
          | none => rfl
          | some v => exact absurd (Memory.wf_head_lt hn _ (Memory.mem_of_read hr)) (by simp [hci])
        rw [h₁, h₂]
      · simpa [hci] using hi

end Sys2Proof.Machine
end

