-- ==== Sys2Proof/Laws/State.lean ====
section
/-!
SUPPORT. One lemma per field and update of State: what each named update of Machine/Ops.lean leaves in each field.
-/
namespace Sys2Proof.Machine

/-! ## nextDraw -/

@[simp] theorem State.nextDraw_inst (s : State) : (s.nextDraw).inst = s.inst := rfl
@[simp] theorem State.nextDraw_initialized (s : State) : (s.nextDraw).initialized = s.initialized := rfl
@[simp] theorem State.nextDraw_capacity (s : State) : (s.nextDraw).capacity = s.capacity := rfl
@[simp] theorem State.nextDraw_writeCursor (s : State) : (s.nextDraw).writeCursor = s.writeCursor := rfl
@[simp] theorem State.nextDraw_readCursor (s : State) : (s.nextDraw).readCursor = s.readCursor := rfl
@[simp] theorem State.nextDraw_count (s : State) : (s.nextDraw).count = s.count := rfl
@[simp] theorem State.nextDraw_storage (s : State) : (s.nextDraw).storage = s.storage := rfl
@[simp] theorem State.nextDraw_fRsp (s : State) : (s.nextDraw).fRsp = s.fRsp := rfl
@[simp] theorem State.nextDraw_xRsp (s : State) : (s.nextDraw).xRsp = s.xRsp := rfl
@[simp] theorem State.nextDraw_draws (s : State) : (s.nextDraw).draws = s.draws + 1 := rfl
@[simp] theorem State.nextDraw_inputs (s : State) : (s.nextDraw).inputs = s.inputs := rfl
@[simp] theorem State.nextDraw_rsp (s : State) (p : Port) : (s.nextDraw).rsp p = s.rsp p := by cases p <;> rfl

/-! ## setStorage -/

@[simp] theorem State.setStorage_inst (s : State) (m : Memory) : (s.setStorage m).inst = s.inst := rfl
@[simp] theorem State.setStorage_initialized (s : State) (m : Memory) : (s.setStorage m).initialized = s.initialized := rfl
@[simp] theorem State.setStorage_capacity (s : State) (m : Memory) : (s.setStorage m).capacity = s.capacity := rfl
@[simp] theorem State.setStorage_writeCursor (s : State) (m : Memory) : (s.setStorage m).writeCursor = s.writeCursor := rfl
@[simp] theorem State.setStorage_readCursor (s : State) (m : Memory) : (s.setStorage m).readCursor = s.readCursor := rfl
@[simp] theorem State.setStorage_count (s : State) (m : Memory) : (s.setStorage m).count = s.count := rfl
@[simp] theorem State.setStorage_storage (s : State) (m : Memory) : (s.setStorage m).storage = m := rfl
@[simp] theorem State.setStorage_fRsp (s : State) (m : Memory) : (s.setStorage m).fRsp = s.fRsp := rfl
@[simp] theorem State.setStorage_xRsp (s : State) (m : Memory) : (s.setStorage m).xRsp = s.xRsp := rfl
@[simp] theorem State.setStorage_draws (s : State) (m : Memory) : (s.setStorage m).draws = s.draws := rfl
@[simp] theorem State.setStorage_inputs (s : State) (m : Memory) : (s.setStorage m).inputs = s.inputs := rfl
@[simp] theorem State.setStorage_rsp (s : State) (m : Memory) (p : Port) : (s.setStorage m).rsp p = s.rsp p := by cases p <;> rfl

/-! ## setWriteCursor -/

@[simp] theorem State.setWriteCursor_inst (s : State) (c : Reg16) : (s.setWriteCursor c).inst = s.inst := rfl
@[simp] theorem State.setWriteCursor_initialized (s : State) (c : Reg16) : (s.setWriteCursor c).initialized = s.initialized := rfl
@[simp] theorem State.setWriteCursor_capacity (s : State) (c : Reg16) : (s.setWriteCursor c).capacity = s.capacity := rfl
@[simp] theorem State.setWriteCursor_writeCursor (s : State) (c : Reg16) : (s.setWriteCursor c).writeCursor = c := rfl
@[simp] theorem State.setWriteCursor_readCursor (s : State) (c : Reg16) : (s.setWriteCursor c).readCursor = s.readCursor := rfl
@[simp] theorem State.setWriteCursor_count (s : State) (c : Reg16) : (s.setWriteCursor c).count = s.count := rfl
@[simp] theorem State.setWriteCursor_storage (s : State) (c : Reg16) : (s.setWriteCursor c).storage = s.storage := rfl
@[simp] theorem State.setWriteCursor_fRsp (s : State) (c : Reg16) : (s.setWriteCursor c).fRsp = s.fRsp := rfl
@[simp] theorem State.setWriteCursor_xRsp (s : State) (c : Reg16) : (s.setWriteCursor c).xRsp = s.xRsp := rfl
@[simp] theorem State.setWriteCursor_draws (s : State) (c : Reg16) : (s.setWriteCursor c).draws = s.draws := rfl
@[simp] theorem State.setWriteCursor_inputs (s : State) (c : Reg16) : (s.setWriteCursor c).inputs = s.inputs := rfl
@[simp] theorem State.setWriteCursor_rsp (s : State) (c : Reg16) (p : Port) : (s.setWriteCursor c).rsp p = s.rsp p := by cases p <;> rfl

/-! ## setReadCursor -/

@[simp] theorem State.setReadCursor_inst (s : State) (c : Reg16) : (s.setReadCursor c).inst = s.inst := rfl
@[simp] theorem State.setReadCursor_initialized (s : State) (c : Reg16) : (s.setReadCursor c).initialized = s.initialized := rfl
@[simp] theorem State.setReadCursor_capacity (s : State) (c : Reg16) : (s.setReadCursor c).capacity = s.capacity := rfl
@[simp] theorem State.setReadCursor_writeCursor (s : State) (c : Reg16) : (s.setReadCursor c).writeCursor = s.writeCursor := rfl
@[simp] theorem State.setReadCursor_readCursor (s : State) (c : Reg16) : (s.setReadCursor c).readCursor = c := rfl
@[simp] theorem State.setReadCursor_count (s : State) (c : Reg16) : (s.setReadCursor c).count = s.count := rfl
@[simp] theorem State.setReadCursor_storage (s : State) (c : Reg16) : (s.setReadCursor c).storage = s.storage := rfl
@[simp] theorem State.setReadCursor_fRsp (s : State) (c : Reg16) : (s.setReadCursor c).fRsp = s.fRsp := rfl
@[simp] theorem State.setReadCursor_xRsp (s : State) (c : Reg16) : (s.setReadCursor c).xRsp = s.xRsp := rfl
@[simp] theorem State.setReadCursor_draws (s : State) (c : Reg16) : (s.setReadCursor c).draws = s.draws := rfl
@[simp] theorem State.setReadCursor_inputs (s : State) (c : Reg16) : (s.setReadCursor c).inputs = s.inputs := rfl
@[simp] theorem State.setReadCursor_rsp (s : State) (c : Reg16) (p : Port) : (s.setReadCursor c).rsp p = s.rsp p := by cases p <;> rfl

/-! ## setCount -/

@[simp] theorem State.setCount_inst (s : State) (n : Reg16) : (s.setCount n).inst = s.inst := rfl
@[simp] theorem State.setCount_initialized (s : State) (n : Reg16) : (s.setCount n).initialized = s.initialized := rfl
@[simp] theorem State.setCount_capacity (s : State) (n : Reg16) : (s.setCount n).capacity = s.capacity := rfl
@[simp] theorem State.setCount_writeCursor (s : State) (n : Reg16) : (s.setCount n).writeCursor = s.writeCursor := rfl
@[simp] theorem State.setCount_readCursor (s : State) (n : Reg16) : (s.setCount n).readCursor = s.readCursor := rfl
@[simp] theorem State.setCount_count (s : State) (n : Reg16) : (s.setCount n).count = n := rfl
@[simp] theorem State.setCount_storage (s : State) (n : Reg16) : (s.setCount n).storage = s.storage := rfl
@[simp] theorem State.setCount_fRsp (s : State) (n : Reg16) : (s.setCount n).fRsp = s.fRsp := rfl
@[simp] theorem State.setCount_xRsp (s : State) (n : Reg16) : (s.setCount n).xRsp = s.xRsp := rfl
@[simp] theorem State.setCount_draws (s : State) (n : Reg16) : (s.setCount n).draws = s.draws := rfl
@[simp] theorem State.setCount_inputs (s : State) (n : Reg16) : (s.setCount n).inputs = s.inputs := rfl
@[simp] theorem State.setCount_rsp (s : State) (n : Reg16) (p : Port) : (s.setCount n).rsp p = s.rsp p := by cases p <;> rfl

/-! ## setInputs -/

@[simp] theorem State.setInputs_inst (s : State) (is : List CycleInput) : (s.setInputs is).inst = s.inst := rfl
@[simp] theorem State.setInputs_initialized (s : State) (is : List CycleInput) : (s.setInputs is).initialized = s.initialized := rfl
@[simp] theorem State.setInputs_capacity (s : State) (is : List CycleInput) : (s.setInputs is).capacity = s.capacity := rfl
@[simp] theorem State.setInputs_writeCursor (s : State) (is : List CycleInput) : (s.setInputs is).writeCursor = s.writeCursor := rfl
@[simp] theorem State.setInputs_readCursor (s : State) (is : List CycleInput) : (s.setInputs is).readCursor = s.readCursor := rfl
@[simp] theorem State.setInputs_count (s : State) (is : List CycleInput) : (s.setInputs is).count = s.count := rfl
@[simp] theorem State.setInputs_storage (s : State) (is : List CycleInput) : (s.setInputs is).storage = s.storage := rfl
@[simp] theorem State.setInputs_fRsp (s : State) (is : List CycleInput) : (s.setInputs is).fRsp = s.fRsp := rfl
@[simp] theorem State.setInputs_xRsp (s : State) (is : List CycleInput) : (s.setInputs is).xRsp = s.xRsp := rfl
@[simp] theorem State.setInputs_draws (s : State) (is : List CycleInput) : (s.setInputs is).draws = s.draws := rfl
@[simp] theorem State.setInputs_inputs (s : State) (is : List CycleInput) : (s.setInputs is).inputs = is := rfl
@[simp] theorem State.setInputs_rsp (s : State) (is : List CycleInput) (p : Port) : (s.setInputs is).rsp p = s.rsp p := by cases p <;> rfl

/-! ## newBuffer -/

@[simp] theorem State.newBuffer_inst (s : State) (i : Bool) (cap : Reg16) : (s.newBuffer i cap).inst = s.inst := rfl
@[simp] theorem State.newBuffer_initialized (s : State) (i : Bool) (cap : Reg16) : (s.newBuffer i cap).initialized = i := rfl
@[simp] theorem State.newBuffer_capacity (s : State) (i : Bool) (cap : Reg16) : (s.newBuffer i cap).capacity = cap := rfl
@[simp] theorem State.newBuffer_writeCursor (s : State) (i : Bool) (cap : Reg16) : (s.newBuffer i cap).writeCursor = 0 := rfl
@[simp] theorem State.newBuffer_readCursor (s : State) (i : Bool) (cap : Reg16) : (s.newBuffer i cap).readCursor = 0 := rfl
@[simp] theorem State.newBuffer_count (s : State) (i : Bool) (cap : Reg16) : (s.newBuffer i cap).count = 0 := rfl
@[simp] theorem State.newBuffer_storage (s : State) (i : Bool) (cap : Reg16) : (s.newBuffer i cap).storage = [] := rfl
@[simp] theorem State.newBuffer_fRsp (s : State) (i : Bool) (cap : Reg16) : (s.newBuffer i cap).fRsp = s.fRsp := rfl
@[simp] theorem State.newBuffer_xRsp (s : State) (i : Bool) (cap : Reg16) : (s.newBuffer i cap).xRsp = s.xRsp := rfl
@[simp] theorem State.newBuffer_draws (s : State) (i : Bool) (cap : Reg16) : (s.newBuffer i cap).draws = s.draws := rfl
@[simp] theorem State.newBuffer_inputs (s : State) (i : Bool) (cap : Reg16) : (s.newBuffer i cap).inputs = s.inputs := rfl
@[simp] theorem State.newBuffer_rsp (s : State) (i : Bool) (cap : Reg16) (p : Port) : (s.newBuffer i cap).rsp p = s.rsp p := by cases p <;> rfl

/-! ## uninitialize -/

@[simp] theorem State.uninitialize_inst (s : State) : (s.uninitialize).inst = s.inst := rfl
@[simp] theorem State.uninitialize_initialized (s : State) : (s.uninitialize).initialized = false := rfl
@[simp] theorem State.uninitialize_capacity (s : State) : (s.uninitialize).capacity = 0 := rfl
@[simp] theorem State.uninitialize_writeCursor (s : State) : (s.uninitialize).writeCursor = 0 := rfl
@[simp] theorem State.uninitialize_readCursor (s : State) : (s.uninitialize).readCursor = 0 := rfl
@[simp] theorem State.uninitialize_count (s : State) : (s.uninitialize).count = 0 := rfl
@[simp] theorem State.uninitialize_storage (s : State) : (s.uninitialize).storage = [] := rfl
@[simp] theorem State.uninitialize_fRsp (s : State) : (s.uninitialize).fRsp = s.fRsp := rfl
@[simp] theorem State.uninitialize_xRsp (s : State) : (s.uninitialize).xRsp = s.xRsp := rfl
@[simp] theorem State.uninitialize_draws (s : State) : (s.uninitialize).draws = s.draws := rfl
@[simp] theorem State.uninitialize_inputs (s : State) : (s.uninitialize).inputs = s.inputs := rfl
@[simp] theorem State.uninitialize_rsp (s : State) (p : Port) : (s.uninitialize).rsp p = s.rsp p := by cases p <;> rfl

/-! ## setRsp -/

@[simp] theorem State.setRsp_inst (s : State) (p : Port) (r : Response) : (s.setRsp p r).inst = s.inst := by cases p <;> rfl
@[simp] theorem State.setRsp_initialized (s : State) (p : Port) (r : Response) : (s.setRsp p r).initialized = s.initialized := by cases p <;> rfl
@[simp] theorem State.setRsp_capacity (s : State) (p : Port) (r : Response) : (s.setRsp p r).capacity = s.capacity := by cases p <;> rfl
@[simp] theorem State.setRsp_writeCursor (s : State) (p : Port) (r : Response) : (s.setRsp p r).writeCursor = s.writeCursor := by cases p <;> rfl
@[simp] theorem State.setRsp_readCursor (s : State) (p : Port) (r : Response) : (s.setRsp p r).readCursor = s.readCursor := by cases p <;> rfl
@[simp] theorem State.setRsp_count (s : State) (p : Port) (r : Response) : (s.setRsp p r).count = s.count := by cases p <;> rfl
@[simp] theorem State.setRsp_storage (s : State) (p : Port) (r : Response) : (s.setRsp p r).storage = s.storage := by cases p <;> rfl
@[simp] theorem State.setRsp_draws (s : State) (p : Port) (r : Response) : (s.setRsp p r).draws = s.draws := by cases p <;> rfl
@[simp] theorem State.setRsp_inputs (s : State) (p : Port) (r : Response) : (s.setRsp p r).inputs = s.inputs := by cases p <;> rfl
@[simp] theorem State.setRsp_f_fRsp (s : State) (r : Response) : (s.setRsp .f r).fRsp = r := rfl
@[simp] theorem State.setRsp_f_xRsp (s : State) (r : Response) : (s.setRsp .f r).xRsp = s.xRsp := rfl
@[simp] theorem State.setRsp_x_fRsp (s : State) (r : Response) : (s.setRsp .x r).fRsp = s.fRsp := rfl
@[simp] theorem State.setRsp_x_xRsp (s : State) (r : Response) : (s.setRsp .x r).xRsp = r := rfl
@[simp] theorem State.setRsp_rsp_same (s : State) (p : Port) (r : Response) : (s.setRsp p r).rsp p = r := by cases p <;> rfl
@[simp] theorem State.setRsp_rsp_other (s : State) (p : Port) (r : Response) :
    (s.setRsp p r).rsp (otherPort p) = s.rsp (otherPort p) := by cases p <;> rfl

/-! ## rsp -/

@[simp] theorem State.rsp_f (s : State) : s.rsp .f = s.fRsp := rfl
@[simp] theorem State.rsp_x (s : State) : s.rsp .x = s.xRsp := rfl
@[simp] theorem otherPort_f : otherPort .f = .x := rfl
@[simp] theorem otherPort_x : otherPort .x = .f := rfl

end Sys2Proof.Machine
end

