-- ==== Sys2Proof/Laws/Ops.lean ====
section
/-!
SUPPORT. One lemma for each thing a shared operation of Machine/Ops.lean, Operands.lean, Flags.lean and Arbiter.lean does:
responses, storage access, cursor and count arithmetic, predicates, acceptance.
-/
namespace Sys2Proof.Machine

/-! ## Responses -/

@[simp] theorem respond_inst (p : Port) (st : Status) (d : Element) (s : State) : (respond p st d s).inst = s.inst := by cases p <;> rfl
@[simp] theorem respond_initialized (p : Port) (st : Status) (d : Element) (s : State) : (respond p st d s).initialized = s.initialized := by cases p <;> rfl
@[simp] theorem respond_capacity (p : Port) (st : Status) (d : Element) (s : State) : (respond p st d s).capacity = s.capacity := by cases p <;> rfl
@[simp] theorem respond_writeCursor (p : Port) (st : Status) (d : Element) (s : State) : (respond p st d s).writeCursor = s.writeCursor := by cases p <;> rfl
@[simp] theorem respond_readCursor (p : Port) (st : Status) (d : Element) (s : State) : (respond p st d s).readCursor = s.readCursor := by cases p <;> rfl
@[simp] theorem respond_count (p : Port) (st : Status) (d : Element) (s : State) : (respond p st d s).count = s.count := by cases p <;> rfl
@[simp] theorem respond_storage (p : Port) (st : Status) (d : Element) (s : State) : (respond p st d s).storage = s.storage := by cases p <;> rfl
@[simp] theorem respond_inputs (p : Port) (st : Status) (d : Element) (s : State) : (respond p st d s).inputs = s.inputs := by cases p <;> rfl
@[simp] theorem respond_draws (p : Port) (st : Status) (d : Element) (s : State) : (respond p st d s).draws = s.draws + 1 := by cases p <;> rfl
@[simp] theorem respond_rsp_other (p : Port) (st : Status) (d : Element) (s : State) :
    (respond p st d s).rsp (otherPort p) = s.rsp (otherPort p) := by cases p <;> rfl
@[simp] theorem respond_f_xRsp (st : Status) (d : Element) (s : State) : (respond .f st d s).xRsp = s.xRsp := rfl
@[simp] theorem respond_x_fRsp (st : Status) (d : Element) (s : State) : (respond .x st d s).fRsp = s.fRsp := rfl

@[simp] theorem respondNoData_inst (p : Port) (st : Status) (s : State) : (respondNoData p st s).inst = s.inst := by cases p <;> rfl
@[simp] theorem respondNoData_initialized (p : Port) (st : Status) (s : State) : (respondNoData p st s).initialized = s.initialized := by cases p <;> rfl
@[simp] theorem respondNoData_capacity (p : Port) (st : Status) (s : State) : (respondNoData p st s).capacity = s.capacity := by cases p <;> rfl
@[simp] theorem respondNoData_writeCursor (p : Port) (st : Status) (s : State) : (respondNoData p st s).writeCursor = s.writeCursor := by cases p <;> rfl
@[simp] theorem respondNoData_readCursor (p : Port) (st : Status) (s : State) : (respondNoData p st s).readCursor = s.readCursor := by cases p <;> rfl
@[simp] theorem respondNoData_count (p : Port) (st : Status) (s : State) : (respondNoData p st s).count = s.count := by cases p <;> rfl
@[simp] theorem respondNoData_storage (p : Port) (st : Status) (s : State) : (respondNoData p st s).storage = s.storage := by cases p <;> rfl
@[simp] theorem respondNoData_inputs (p : Port) (st : Status) (s : State) : (respondNoData p st s).inputs = s.inputs := by cases p <;> rfl
@[simp] theorem respondNoData_draws (p : Port) (st : Status) (s : State) : (respondNoData p st s).draws = s.draws + 1 := by cases p <;> rfl
@[simp] theorem respondNoData_rsp_other (p : Port) (st : Status) (s : State) :
    (respondNoData p st s).rsp (otherPort p) = s.rsp (otherPort p) := by cases p <;> rfl
@[simp] theorem respondNoData_f_xRsp (st : Status) (s : State) : (respondNoData .f st s).xRsp = s.xRsp := rfl
@[simp] theorem respondNoData_x_fRsp (st : Status) (s : State) : (respondNoData .x st s).fRsp = s.fRsp := rfl

@[simp] theorem fail_inst (p : Port) (st : Status) (s : State) : (fail p st s).inst = s.inst := by cases p <;> rfl
@[simp] theorem fail_initialized (p : Port) (st : Status) (s : State) : (fail p st s).initialized = s.initialized := by cases p <;> rfl
@[simp] theorem fail_capacity (p : Port) (st : Status) (s : State) : (fail p st s).capacity = s.capacity := by cases p <;> rfl
@[simp] theorem fail_writeCursor (p : Port) (st : Status) (s : State) : (fail p st s).writeCursor = s.writeCursor := by cases p <;> rfl
@[simp] theorem fail_readCursor (p : Port) (st : Status) (s : State) : (fail p st s).readCursor = s.readCursor := by cases p <;> rfl
@[simp] theorem fail_count (p : Port) (st : Status) (s : State) : (fail p st s).count = s.count := by cases p <;> rfl
@[simp] theorem fail_storage (p : Port) (st : Status) (s : State) : (fail p st s).storage = s.storage := by cases p <;> rfl
@[simp] theorem fail_inputs (p : Port) (st : Status) (s : State) : (fail p st s).inputs = s.inputs := by cases p <;> rfl
@[simp] theorem fail_draws (p : Port) (st : Status) (s : State) : (fail p st s).draws = s.draws + 1 := by cases p <;> rfl
@[simp] theorem fail_rsp_other (p : Port) (st : Status) (s : State) :
    (fail p st s).rsp (otherPort p) = s.rsp (otherPort p) := by cases p <;> rfl
@[simp] theorem fail_f_xRsp (st : Status) (s : State) : (fail .f st s).xRsp = s.xRsp := rfl
@[simp] theorem fail_x_fRsp (st : Status) (s : State) : (fail .x st s).fRsp = s.fRsp := rfl

@[simp] theorem noResponse_inst (p : Port) (s : State) : (noResponse p s).inst = s.inst := by cases p <;> rfl
@[simp] theorem noResponse_initialized (p : Port) (s : State) : (noResponse p s).initialized = s.initialized := by cases p <;> rfl
@[simp] theorem noResponse_capacity (p : Port) (s : State) : (noResponse p s).capacity = s.capacity := by cases p <;> rfl
@[simp] theorem noResponse_writeCursor (p : Port) (s : State) : (noResponse p s).writeCursor = s.writeCursor := by cases p <;> rfl
@[simp] theorem noResponse_readCursor (p : Port) (s : State) : (noResponse p s).readCursor = s.readCursor := by cases p <;> rfl
@[simp] theorem noResponse_count (p : Port) (s : State) : (noResponse p s).count = s.count := by cases p <;> rfl
@[simp] theorem noResponse_storage (p : Port) (s : State) : (noResponse p s).storage = s.storage := by cases p <;> rfl
@[simp] theorem noResponse_inputs (p : Port) (s : State) : (noResponse p s).inputs = s.inputs := by cases p <;> rfl
@[simp] theorem noResponse_draws (p : Port) (s : State) : (noResponse p s).draws = s.draws + 1 := by cases p <;> rfl
@[simp] theorem noResponse_rsp_other (p : Port) (s : State) :
    (noResponse p s).rsp (otherPort p) = s.rsp (otherPort p) := by cases p <;> rfl
@[simp] theorem noResponse_f_xRsp (s : State) : (noResponse .f s).xRsp = s.xRsp := rfl
@[simp] theorem noResponse_x_fRsp (s : State) : (noResponse .x s).fRsp = s.fRsp := rfl

@[simp] theorem respond_rsp (p : Port) (st : Status) (d : Element) (s : State) :
    (respond p st d s).rsp p = { valid := true, status := st.code, data := d } := by
  cases p <;> rfl
@[simp] theorem respond_f_fRsp (st : Status) (d : Element) (s : State) :
    (respond .f st d s).fRsp = { valid := true, status := st.code, data := d } := rfl
@[simp] theorem respond_x_xRsp (st : Status) (d : Element) (s : State) :
    (respond .x st d s).xRsp = { valid := true, status := st.code, data := d } := rfl
@[simp] theorem respondNoData_rsp (p : Port) (st : Status) (s : State) :
    (respondNoData p st s).rsp p = { valid := true, status := st.code, data := unspecifiedData s } := by
  cases p <;> rfl
@[simp] theorem respondNoData_f_fRsp (st : Status) (s : State) :
    (respondNoData .f st s).fRsp = { valid := true, status := st.code, data := unspecifiedData s } := rfl
@[simp] theorem respondNoData_x_xRsp (st : Status) (s : State) :
    (respondNoData .x st s).xRsp = { valid := true, status := st.code, data := unspecifiedData s } := rfl
@[simp] theorem fail_rsp (p : Port) (st : Status) (s : State) :
    (fail p st s).rsp p = { valid := true, status := st.code, data := unspecifiedData s } := by
  cases p <;> rfl
@[simp] theorem fail_f_fRsp (st : Status) (s : State) :
    (fail .f st s).fRsp = { valid := true, status := st.code, data := unspecifiedData s } := rfl
@[simp] theorem fail_x_xRsp (st : Status) (s : State) :
    (fail .x st s).xRsp = { valid := true, status := st.code, data := unspecifiedData s } := rfl
@[simp] theorem noResponse_rsp (p : Port) (s : State) :
    (noResponse p s).rsp p = { valid := false, status := Config.freeStatus s.draws, data := unspecifiedData s } := by
  cases p <;> rfl
@[simp] theorem noResponse_f_fRsp (s : State) :
    (noResponse .f s).fRsp = { valid := false, status := Config.freeStatus s.draws, data := unspecifiedData s } := rfl
@[simp] theorem noResponse_x_xRsp (s : State) :
    (noResponse .x s).xRsp = { valid := false, status := Config.freeStatus s.draws, data := unspecifiedData s } := rfl

/-- Unspecified data is some `DW`-bit value; nothing else is known of it. -/
theorem unspecifiedData_lt (s : State) : unspecifiedData s < 2 ^ s.inst.dw := BitVec.isLt _

/-- Whatever a command did before it responded, if it left the other port, the parameters and the inputs alone it answers. -/
theorem respond_answers {p : Port} {st : Status} {d : Element} {s s' : State}
    (hr : s'.rsp (otherPort p) = s.rsp (otherPort p)) (hc : s'.inst = s.inst) (hi : s'.inputs = s.inputs) :
    Answers p st s (respond p st d s') :=
  { valid := by simp, status := by simp, other := by simp [hr], inst := by simp [hc], inputs := by simp [hi] }

theorem respondNoData_answers {p : Port} {st : Status} {s s' : State}
    (hr : s'.rsp (otherPort p) = s.rsp (otherPort p)) (hc : s'.inst = s.inst) (hi : s'.inputs = s.inputs) :
    Answers p st s (respondNoData p st s') := respond_answers hr hc hi

/-- An error is answered and changes nothing else (R118, R120). -/
theorem fail_failsWith (p : Port) (st : Status) (s : State) : FailsWith p st s (fail p st s) :=
  { answers := respondNoData_answers rfl rfl rfl
    registers := ⟨by simp, by simp, by simp, by simp, by simp⟩
    storage := fun _ => by simp }

/-- A status code is one of 0 to 6 (R115). -/
theorem Status.code_le (st : Status) : st.code.toNat ≤ 6 := by cases st <;> decide

/-- Different statuses have different codes (R115). -/
theorem Status.code_injective {a b : Status} (h : a.code = b.code) : a = b := by
  cases a <;> cases b <;> first | rfl | exact absurd h (by decide)

@[simp] theorem ifInitialized_true {p : Port} {s : State} (h : s.initialized = true) (body : State) :
    ifInitialized p s body = body := if_pos h

@[simp] theorem ifInitialized_false {p : Port} {s : State} (h : s.initialized = false) (body : State) :
    ifInitialized p s body = fail p .notInitialized s := if_neg (by simp [h])

/-! ## Storage access -/

/-- A read of a written slot gives its value (R36). -/
theorem memRead_of_some {s : State} {i : Reg16} {v : Element} (h : s.storage.read i.toNat = some v) : memRead s i = v := by
  simp [memRead, h]

/-- A read gives a `DW`-bit value, written or not. -/
theorem memRead_lt {s : State} (h : ∀ c ∈ s.storage, c.2 < 2 ^ s.inst.dw) (i : Reg16) : memRead s i < 2 ^ s.inst.dw := by
  unfold memRead
  split
  · rename_i v hv; exact h _ (Memory.mem_of_read hv)
  · exact BitVec.isLt _

@[simp] theorem memWrite_storage (s : State) (i : Reg16) (v : Element) :
    (memWrite s i v).storage = s.storage.write i.toNat v := rfl
@[simp] theorem memWrite_inst (s : State) (i : Reg16) (v : Element) : (memWrite s i v).inst = s.inst := rfl
@[simp] theorem memWrite_initialized (s : State) (i : Reg16) (v : Element) :
    (memWrite s i v).initialized = s.initialized := rfl
@[simp] theorem memWrite_capacity (s : State) (i : Reg16) (v : Element) : (memWrite s i v).capacity = s.capacity := rfl
@[simp] theorem memWrite_writeCursor (s : State) (i : Reg16) (v : Element) :
    (memWrite s i v).writeCursor = s.writeCursor := rfl
@[simp] theorem memWrite_readCursor (s : State) (i : Reg16) (v : Element) :
    (memWrite s i v).readCursor = s.readCursor := rfl
@[simp] theorem memWrite_count (s : State) (i : Reg16) (v : Element) : (memWrite s i v).count = s.count := rfl
@[simp] theorem memWrite_fRsp (s : State) (i : Reg16) (v : Element) : (memWrite s i v).fRsp = s.fRsp := rfl
@[simp] theorem memWrite_xRsp (s : State) (i : Reg16) (v : Element) : (memWrite s i v).xRsp = s.xRsp := rfl
@[simp] theorem memWrite_draws (s : State) (i : Reg16) (v : Element) : (memWrite s i v).draws = s.draws := rfl
@[simp] theorem memWrite_inputs (s : State) (i : Reg16) (v : Element) : (memWrite s i v).inputs = s.inputs := rfl

@[simp] theorem memWrite_rsp (s : State) (i : Reg16) (v : Element) (p : Port) : (memWrite s i v).rsp p = s.rsp p := by
  cases p <;> rfl

/-! ## Predicates -/

theorem isEmpty_true_iff (s : State) : isEmpty s = true ↔ s.count = 0 ∧ s.writeCursor = s.readCursor := by simp [isEmpty]

theorem isFull_true_iff (s : State) : isFull s = true ↔ s.count = s.capacity ∧ s.writeCursor = s.readCursor := by simp [isFull]

theorem indexInRange_iff (s : State) (idx : Reg16) : indexInRange s idx = true ↔ idx.toNat < s.capacity.toNat := by
  simp [indexInRange]

theorem capacityFits_iff (s : State) (cap : Reg16) :
    capacityFits s cap = true ↔ cap.toNat ≠ 0 ∧ cap.toNat ≤ s.inst.depth := by simp [capacityFits]

/-! ## Arithmetic -/

/-- The remainder form fits 16 bits (R77). -/
theorem incMod_toNat {c n : Reg16} (h : c.toNat < n.toNat) : (incMod c n).toNat = (c.toNat + 1) % n.toNat := by
  have : (c.toNat + 1) % n.toNat < n.toNat := Nat.mod_lt _ (by omega)
  have := n.isLt
  simp only [incMod, BitVec.toNat_ofNat]
  exact Nat.mod_eq_of_lt (by omega)

theorem nextCursor_toNat {s : State} {c : Reg16} (h : c.toNat < s.capacity.toNat) :
    (nextCursor s c).toNat = (c.toNat + 1) % s.capacity.toNat := by
  rw [nextCursor, if_pos h, incMod_toNat h]

theorem nextCursor_lt {s : State} {c : Reg16} (h : c.toNat < s.capacity.toNat) :
    (nextCursor s c).toNat < s.capacity.toNat := by
  rw [nextCursor_toNat h]; exact Nat.mod_lt _ (by omega)

theorem countUp_toNat {s : State} (h : s.count.toNat < 65535) : (countUp s).toNat = s.count.toNat + 1 := by
  rw [countUp, if_pos h, BitVec.toNat_add]; simp; omega

theorem countDown_toNat {s : State} (h : s.count.toNat ≠ 0) : (countDown s).toNat = s.count.toNat - 1 := by
  have := s.count.isLt
  rw [countDown, if_neg h, BitVec.toNat_sub]; simp; omega

/-- Two different offsets below `n` name different slots modulo `n`. -/
theorem offset_ne {r j k n : Nat} (hj : j < n) (hk : k < n) (h : (r + j) % n = (r + k) % n) : j = k := by
  have h2 : j ≡ k [MOD n] := Nat.ModEq.add_left_cancel' r h
  have h3 : j % n = k % n := h2
  rwa [Nat.mod_eq_of_lt hj, Nat.mod_eq_of_lt hk] at h3

end Sys2Proof.Machine
end

