-- ==== Sys2Proof/Laws/Exec.lean ====
section
/-!
SUPPORT. What each meaning can do, said once: `exec` always answers a next state (R71), and the cases of each command with the
state it leaves.
-/
namespace Sys2Proof.Machine

/-- `Exec` is total: every command has a next state in every state (R71). -/
theorem exec_answers (i : Instr) (s : State) : ∃ t, exec i s = .next t := by cases i <;> exact ⟨_, rfl⟩

theorem next_injective {s t : State} (h : (Host.Outcome.next s : Result) = .next t) : s = t := by cases h; rfl

theorem exec_nop {s t : State} : exec .nop s = .next t ↔ t = nopOn .f s :=
  ⟨fun h => (next_injective h).symm, fun h => h ▸ rfl⟩

theorem exec_illegal {op : Opcode} {s t : State} : exec (.illegal op) s = .next t ↔ t = illegalOn .f s :=
  ⟨fun h => (next_injective h).symm, fun h => h ▸ rfl⟩

/-- The two outcomes of CREATE (R72). -/
theorem exec_create {cap : Reg16} {s t : State} : exec (.create cap) s = .next t ↔
    (capacityFits s cap = true ∧ t = respondNoData .f .ok (s.newBuffer true cap)) ∨
    (capacityFits s cap = false ∧ t = fail .f .allocationFailed s.uninitialize) := by
  simp only [exec, execCreate, Host.Outcome.next.injEq]
  cases hc : capacityFits s cap <;> simp [eq_comm]

/-- The three outcomes of ENQUEUE (R78). -/
theorem exec_enqueue {v : Element} {s t : State} : exec (.enqueue v) s = .next t ↔
    (s.initialized = false ∧ t = fail .f .notInitialized s) ∨
    (s.initialized = true ∧ isFull s = true ∧ t = fail .f .full s) ∨
    (s.initialized = true ∧ isFull s = false ∧ t = respondNoData .f .ok (pushElement v s)) := by
  simp only [exec, execEnqueue, ifInitialized, Host.Outcome.next.injEq]
  cases hi : s.initialized <;> cases hf : isFull s <;> simp [eq_comm]

/-- The three outcomes of DEQUEUE (R80). -/
theorem exec_dequeue {s t : State} : exec .dequeue s = .next t ↔
    (s.initialized = false ∧ t = fail .f .notInitialized s) ∨
    (s.initialized = true ∧ isEmpty s = true ∧ t = fail .f .empty s) ∨
    (s.initialized = true ∧ isEmpty s = false ∧ t = respond .f .ok (memRead s (dequeueIndex s)) (popElement s)) := by
  simp only [exec, execDequeue, ifInitialized, Host.Outcome.next.injEq]
  cases hi : s.initialized <;> cases hf : isEmpty s <;> simp [eq_comm]

/-- The three outcomes of WRITE_AT on a port (R90). -/
theorem writeAtOn_eq {p : Port} {idx : Reg16} {v : Element} {s t : State} : writeAtOn p idx v s = t ↔
    (s.initialized = false ∧ t = fail p .notInitialized s) ∨
    (s.initialized = true ∧ indexInRange s idx = false ∧ t = fail p .indexOutOfRange s) ∨
    (s.initialized = true ∧ indexInRange s idx = true ∧
      t = respondNoData p .ok (memWrite s (absoluteIndex idx) v)) := by
  simp only [writeAtOn, ifInitialized]
  cases hi : s.initialized <;> cases hf : indexInRange s idx <;> simp [eq_comm]

/-- The three outcomes of READ_AT on a port (R92). -/
theorem readAtOn_eq {p : Port} {idx : Reg16} {s t : State} : readAtOn p idx s = t ↔
    (s.initialized = false ∧ t = fail p .notInitialized s) ∨
    (s.initialized = true ∧ indexInRange s idx = false ∧ t = fail p .indexOutOfRange s) ∨
    (s.initialized = true ∧ indexInRange s idx = true ∧ t = respond p .ok (memRead s (absoluteIndex idx)) s) := by
  simp only [readAtOn, ifInitialized]
  cases hi : s.initialized <;> cases hf : indexInRange s idx <;> simp [eq_comm]

theorem exec_writeAt {idx : Reg16} {v : Element} {s t : State} :
    exec (.writeAt idx v) s = .next t ↔ writeAtOn .f idx v s = t := by simp [exec, execWriteAt]

theorem exec_xWriteAt {idx : Reg16} {v : Element} {s t : State} :
    exec (.xWriteAt idx v) s = .next t ↔ writeAtOn .x idx v s = t := by simp [exec, execXWriteAt]

theorem exec_readAt {idx : Reg16} {s t : State} : exec (.readAt idx) s = .next t ↔ readAtOn .f idx s = t := by
  simp [exec, execReadAt]

theorem exec_xReadAt {idx : Reg16} {s t : State} : exec (.xReadAt idx) s = .next t ↔ readAtOn .x idx s = t := by
  simp [exec, execXReadAt]

/-- The two outcomes of IS_EMPTY (R96). -/
theorem exec_isEmpty {s t : State} : exec .isEmpty s = .next t ↔
    (s.initialized = false ∧ t = fail .f .notInitialized s) ∨
    (s.initialized = true ∧ t = respond .f .ok (flagData (isEmpty s)) s) := by
  simp only [exec, execIsEmpty, ifInitialized, Host.Outcome.next.injEq]
  cases hi : s.initialized <;> simp [eq_comm]

/-- The two outcomes of IS_FULL (R97). -/
theorem exec_isFull {s t : State} : exec .isFull s = .next t ↔
    (s.initialized = false ∧ t = fail .f .notInitialized s) ∨
    (s.initialized = true ∧ t = respond .f .ok (flagData (isFull s)) s) := by
  simp only [exec, execIsFull, ifInitialized, Host.Outcome.next.injEq]
  cases hi : s.initialized <;> simp [eq_comm]

theorem exec_xNop {s t : State} : exec .xNop s = .next t ↔ t = nopOn .x s :=
  ⟨fun h => (next_injective h).symm, fun h => h ▸ rfl⟩

/-! The commands that are illegal on port X are one operation there (R76, R103). -/

theorem exec_xIllegalCreate (s : State) : exec .xIllegalCreate s = .next (illegalOn .x s) := rfl
theorem exec_xIllegalEnqueue (s : State) : exec .xIllegalEnqueue s = .next (illegalOn .x s) := rfl
theorem exec_xIllegalDequeue (s : State) : exec .xIllegalDequeue s = .next (illegalOn .x s) := rfl
theorem exec_xIllegalIsEmpty (s : State) : exec .xIllegalIsEmpty s = .next (illegalOn .x s) := rfl
theorem exec_xIllegalIsFull (s : State) : exec .xIllegalIsFull s = .next (illegalOn .x s) := rfl
theorem exec_xIllegal (op : Opcode) (s : State) : exec (.xIllegal op) s = .next (illegalOn .x s) := rfl

/-! ## Everything a command can do, said once -/

/-- The port of a decoded command is the one it was read for. -/
theorem decodeF_port (dw : Nat) (c : Command) : (decodeF dw c).port = .f := by unfold decodeF; split <;> rfl

theorem decodeX_port (dw : Nat) (c : Command) : (decodeX dw c).port = .x := by unfold decodeX; split <;> rfl

/-- The ways a command can end, with the state it leaves. `failed`: an error, nothing changes but the response. `answered`: `OK`,
nothing changes but the response, whose data is a `DW`-bit value. The others are the commands that write the buffer. -/
inductive Ends : Instr → State → State → Prop where
  | failed {i : Instr} {s : State} (st : Status) (herr : st ≠ .ok) (hst : expectedStatus i s = st)
      (hnc : isCreate i = false) : Ends i s (fail i.port st s)
  | answered {i : Instr} {s : State} (d : Element) (hst : expectedStatus i s = .ok) (hnc : isCreate i = false)
      (hnw : isWriteAt i = false) (hne : ∀ v : Element, i ≠ .enqueue v) (hnd : i ≠ .dequeue)
      (hd : 0 < s.inst.dw → (∀ c ∈ s.storage, c.2 < 2 ^ s.inst.dw) → d < 2 ^ s.inst.dw) :
      Ends i s (respond i.port .ok d s)
  | pushed {s : State} (v : Element) (hi : s.initialized = true) (hf : isFull s = false)
      (hst : expectedStatus (.enqueue v) s = .ok) : Ends (.enqueue v) s (respondNoData .f .ok (pushElement v s))
  | popped {s : State} (hi : s.initialized = true) (he : isEmpty s = false) (hst : expectedStatus .dequeue s = .ok) :
      Ends .dequeue s (respond .f .ok (memRead s (dequeueIndex s)) (popElement s))
  | stored {i : Instr} {s : State} (idx : Reg16) (v : Element) (hi : s.initialized = true)
      (hr : idx.toNat < s.capacity.toNat) (hw : i = .writeAt idx v ∨ i = .xWriteAt idx v)
      (hst : expectedStatus i s = .ok) : Ends i s (respondNoData i.port .ok (memWrite s (absoluteIndex idx) v))
  | created {s : State} (cap : Reg16) (h0 : cap.toNat ≠ 0) (hd : cap.toNat ≤ s.inst.depth)
      (hst : expectedStatus (.create cap) s = .ok) :
      Ends (.create cap) s (respondNoData .f .ok (s.newBuffer true cap))
  | refused {s : State} (cap : Reg16) (h : cap.toNat = 0 ∨ s.inst.depth < cap.toNat)
      (hst : expectedStatus (.create cap) s = .allocationFailed) :
      Ends (.create cap) s (fail .f .allocationFailed s.uninitialize)

theorem flagData_lt {dw : Nat} (h : 0 < dw) (b : Bool) : flagData b < 2 ^ dw :=
  Nat.lt_of_lt_of_le (Bool.toNat_lt b) (Nat.pow_le_pow_right (n := 2) Nat.two_pos h)

theorem ends_writeAtOn {i : Instr} {s : State} {idx : Reg16} {v : Element} (hw : i = .writeAt idx v ∨ i = .xWriteAt idx v) :
    Ends i s (writeAtOn i.port idx v s) := by
  have hr := indexInRange_iff s idx
  have hc : isCreate i = false := by rcases hw with rfl | rfl <;> rfl
  rcases (writeAtOn_eq (p := i.port) (idx := idx) (v := v) (s := s)).mp rfl with ⟨hi, h⟩ | ⟨hi, hf, h⟩ | ⟨hi, hf, h⟩
  · rw [h]; exact .failed _ (by decide) (by rcases hw with rfl | rfl <;> simp [expectedStatus, hi]) hc
  · have hle : s.capacity.toNat ≤ idx.toNat := Nat.le_of_not_lt fun hlt => by rw [hr.mpr hlt] at hf; cases hf
    rw [h]; exact .failed _ (by decide) (by rcases hw with rfl | rfl <;> simp [expectedStatus, hi, hle]) hc
  · have hlt := hr.mp hf
    rw [h]
    exact .stored idx v hi hlt hw (by rcases hw with rfl | rfl <;> simp [expectedStatus, hi, Nat.not_le_of_lt hlt])

theorem ends_readAtOn {i : Instr} {s : State} {idx : Reg16} (hw : i = .readAt idx ∨ i = .xReadAt idx) :
    Ends i s (readAtOn i.port idx s) := by
  have hr := indexInRange_iff s idx
  have hc : isCreate i = false := by rcases hw with rfl | rfl <;> rfl
  rcases (readAtOn_eq (p := i.port) (idx := idx) (s := s)).mp rfl with ⟨hi, h⟩ | ⟨hi, hf, h⟩ | ⟨hi, hf, h⟩
  · rw [h]; exact .failed _ (by decide) (by rcases hw with rfl | rfl <;> simp [expectedStatus, hi]) hc
  · have hle : s.capacity.toNat ≤ idx.toNat := Nat.le_of_not_lt fun hlt => by rw [hr.mpr hlt] at hf; cases hf
    rw [h]; exact .failed _ (by decide) (by rcases hw with rfl | rfl <;> simp [expectedStatus, hi, hle]) hc
  · have hlt := hr.mp hf
    rw [h]
    refine .answered _ ?_ hc ?_ ?_ ?_ fun _ hs => memRead_lt hs _
    · rcases hw with rfl | rfl <;> simp [expectedStatus, hi, Nat.not_le_of_lt hlt]
    · rcases hw with rfl | rfl <;> rfl
    · rcases hw with rfl | rfl <;> exact fun _ h => nomatch h
    · rcases hw with rfl | rfl <;> exact fun h => nomatch h

/-- Everything a command can do: if `exec` answers the next state `t`, one of the cases of `Ends` holds. -/
theorem exec_ends {i : Instr} {s t : State} (h : exec i s = .next t) : Ends i s t := by
  cases i with
  | create cap =>
    have hf := capacityFits_iff s cap
    rcases exec_create.mp h with ⟨hc, rfl⟩ | ⟨hc, rfl⟩
    · have hc := hf.mp hc
      exact .created cap hc.1 hc.2 (if_neg (by omega))
    · have hc : ¬(cap.toNat ≠ 0 ∧ cap.toNat ≤ s.inst.depth) := fun h => by rw [hf.mpr h] at hc; cases hc
      have hc : cap.toNat = 0 ∨ s.inst.depth < cap.toNat := by omega
      exact .refused cap hc (if_pos hc)
  | enqueue v =>
    have hf := isFull_true_iff s
    rcases exec_enqueue.mp h with ⟨hi, rfl⟩ | ⟨hi, hb, rfl⟩ | ⟨hi, hb, rfl⟩
    · exact .failed (i := .enqueue v) _ (by decide) (by simp [expectedStatus, hi]) rfl
    · exact .failed (i := .enqueue v) _ (by decide) (by simp [expectedStatus, hi, hf.mp hb]) rfl
    · have hb' : ¬(s.count = s.capacity ∧ s.writeCursor = s.readCursor) := fun h => by rw [hf.mpr h] at hb; cases hb
      exact .pushed v hi hb (by simp only [expectedStatus, hi]; rw [if_neg (by decide), if_neg hb'])
  | dequeue =>
    have hf := isEmpty_true_iff s
    rcases exec_dequeue.mp h with ⟨hi, rfl⟩ | ⟨hi, hb, rfl⟩ | ⟨hi, hb, rfl⟩
    · exact .failed (i := .dequeue) _ (by decide) (by simp [expectedStatus, hi]) rfl
    · exact .failed (i := .dequeue) _ (by decide) (by simp [expectedStatus, hi, hf.mp hb]) rfl
    · have hb' : ¬(s.count = 0 ∧ s.writeCursor = s.readCursor) := fun h => by rw [hf.mpr h] at hb; cases hb
      exact .popped hi hb (by simp only [expectedStatus, hi]; rw [if_neg (by decide), if_neg hb'])
  | writeAt idx v => exact exec_writeAt.mp h ▸ ends_writeAtOn (.inl rfl)
  | xWriteAt idx v => exact exec_xWriteAt.mp h ▸ ends_writeAtOn (i := .xWriteAt idx v) (.inr rfl)
  | readAt idx => exact exec_readAt.mp h ▸ ends_readAtOn (.inl rfl)
  | xReadAt idx => exact exec_xReadAt.mp h ▸ ends_readAtOn (i := .xReadAt idx) (.inr rfl)
  | isEmpty =>
    rcases exec_isEmpty.mp h with ⟨hi, rfl⟩ | ⟨hi, rfl⟩
    · exact .failed (i := .isEmpty) _ (by decide) (by simp [expectedStatus, hi]) rfl
    · exact .answered (i := .isEmpty) _ (by simp [expectedStatus, hi]) rfl rfl (fun _ h => nomatch h)
        (fun h => nomatch h) fun hw _ => flagData_lt hw _
  | isFull =>
    rcases exec_isFull.mp h with ⟨hi, rfl⟩ | ⟨hi, rfl⟩
    · exact .failed (i := .isFull) _ (by decide) (by simp [expectedStatus, hi]) rfl
    · exact .answered (i := .isFull) _ (by simp [expectedStatus, hi]) rfl rfl (fun _ h => nomatch h)
        (fun h => nomatch h) fun hw _ => flagData_lt hw _
  | nop =>
    exact next_injective h ▸ .answered (i := .nop) _ rfl rfl rfl (fun _ h => nomatch h) (fun h => nomatch h)
      fun _ _ => unspecifiedData_lt s
  | xNop =>
    exact next_injective h ▸ .answered (i := .xNop) _ rfl rfl rfl (fun _ h => nomatch h) (fun h => nomatch h)
      fun _ _ => unspecifiedData_lt s
  | illegal op => exact next_injective h ▸ .failed (i := .illegal op) _ (by decide) rfl rfl
  | xIllegalCreate => exact next_injective h ▸ .failed (i := .xIllegalCreate) _ (by decide) rfl rfl
  | xIllegalEnqueue => exact next_injective h ▸ .failed (i := .xIllegalEnqueue) _ (by decide) rfl rfl
  | xIllegalDequeue => exact next_injective h ▸ .failed (i := .xIllegalDequeue) _ (by decide) rfl rfl
  | xIllegalIsEmpty => exact next_injective h ▸ .failed (i := .xIllegalIsEmpty) _ (by decide) rfl rfl
  | xIllegalIsFull => exact next_injective h ▸ .failed (i := .xIllegalIsFull) _ (by decide) rfl rfl
  | xIllegal op => exact next_injective h ▸ .failed (i := .xIllegal op) _ (by decide) rfl rfl

/-! ## Sequencing -/

@[simp] theorem andThen_next (s : State) (k : State → Result) : andThen (.next s) k = k s := rfl

@[simp] theorem execAll_nil (s : State) : execAll [] s = .next s := rfl

@[simp] theorem execAll_cons (i : Instr) (is : List Instr) (s : State) :
    execAll (i :: is) s = andThen (exec i s) (execAll is) := rfl

theorem execAll_append (is js : List Instr) (s : State) :
    execAll (is ++ js) s = andThen (execAll is s) (execAll js) := by
  induction is generalizing s with
  | nil => rfl
  | cons i is ih =>
    obtain ⟨t, ht⟩ := exec_answers i s
    simp [ht, ih]

/-! What a sequence shows, promises, puts in and takes out, one command at a time. -/

theorem responses_cons {i : Instr} {is : List Instr} {s t : State} (h : exec i s = .next t) :
    responses (i :: is) s = t.rsp i.port :: responses is t := by rw [responses, h]

theorem promises_cons {i : Instr} {is : List Instr} {s t : State} (h : exec i s = .next t) :
    promises (i :: is) s = promisedData i s :: promises is t := by rw [promises, h]

theorem enqueued_cons {i : Instr} {is : List Instr} {s t : State} (h : exec i s = .next t) :
    enqueued (i :: is) s = enqueuedBy i t ++ enqueued is t := by rw [enqueued, h]

theorem dequeued_cons {i : Instr} {is : List Instr} {s t : State} (h : exec i s = .next t) :
    dequeued (i :: is) s = dequeuedBy i t ++ dequeued is t := by rw [dequeued, h]

end Sys2Proof.Machine
end

