-- ==== Sys2Proof/Laws/PerInstr.lean ====
section
/-!
SUPPORT. One lemma per constructor: the fields the encoder gives a well-formed command are the fields the decoder reads the
command back from, on its port (spec/30_encoding.md R60, R61, R70).
-/
namespace Sys2Proof

/-- A value that fits the `wdata` field is read from it unchanged (R59). -/
theorem elementFits_mod {dw : Nat} {v : Element} (h : elementFits dw v = true) : v % 2 ^ dw = v :=
  Nat.mod_eq_of_lt (of_decide_eq_true h)

/-- A reserved opcode is none of the eight commands' (R61). -/
theorem decode_reserved {dw : Nat} {op : Opcode} (h : reservedOpcode op = true) :
    decodeF dw ⟨op, 0, 0⟩ = .illegal op ∧ decodeX dw ⟨op, 0, 0⟩ = .xIllegal op := by
  have h : 8 ≤ op.toNat := of_decide_eq_true h
  unfold decodeF decodeX
  constructor <;> split <;> first | rfl | (rename_i hop; simp only at hop; omega)

namespace Laws.FieldsReadBack

/-- Decoding the fields of a well-formed command, on its port, gives the command. -/
def Statement (i : Instr) : Prop :=
  ∀ dw : Nat, i.wellFormed dw = true → decodeCommand i.port dw (encodeCommand i) = i

theorem nop : Statement .nop := fun _ _ => rfl
theorem create (cap : Reg16) : Statement (.create cap) := fun _ _ => rfl
theorem enqueue (v : Element) : Statement (.enqueue v) := fun _ h => congrArg Instr.enqueue (elementFits_mod h)
theorem dequeue : Statement .dequeue := fun _ _ => rfl
theorem writeAt (idx : Reg16) (v : Element) : Statement (.writeAt idx v) :=
  fun _ h => congrArg (Instr.writeAt idx) (elementFits_mod h)
theorem readAt (idx : Reg16) : Statement (.readAt idx) := fun _ _ => rfl
theorem isEmpty : Statement .isEmpty := fun _ _ => rfl
theorem isFull : Statement .isFull := fun _ _ => rfl
theorem illegal (op : Opcode) : Statement (.illegal op) := fun _ h => (decode_reserved h).1
theorem xNop : Statement .xNop := fun _ _ => rfl
theorem xWriteAt (idx : Reg16) (v : Element) : Statement (.xWriteAt idx v) :=
  fun _ h => congrArg (Instr.xWriteAt idx) (elementFits_mod h)
theorem xReadAt (idx : Reg16) : Statement (.xReadAt idx) := fun _ _ => rfl
theorem xIllegalCreate : Statement .xIllegalCreate := fun _ _ => rfl
theorem xIllegalEnqueue : Statement .xIllegalEnqueue := fun _ _ => rfl
theorem xIllegalDequeue : Statement .xIllegalDequeue := fun _ _ => rfl
theorem xIllegalIsEmpty : Statement .xIllegalIsEmpty := fun _ _ => rfl
theorem xIllegalIsFull : Statement .xIllegalIsFull := fun _ _ => rfl
theorem xIllegal (op : Opcode) : Statement (.xIllegal op) := fun _ h => (decode_reserved h).2

end Laws.FieldsReadBack

end Sys2Proof
end

