-- ==== Sys2Proof/Laws/Step.lean ====
section
/-!
SUPPORT. What one clock edge can do, said once for each port and for the cycle (spec/70_reset_and_hazards.md R137, R138).
-/
namespace Sys2Proof.Machine

/-- A command touches neither the parameters, nor the coming inputs, nor the other port, and is answered on its own. -/
theorem exec_keeps {i : Instr} {s t : State} (h : exec i s = .next t) :
    t.inst = s.inst ∧ t.inputs = s.inputs ∧ t.rsp (otherPort i.port) = s.rsp (otherPort i.port) ∧
      (t.rsp i.port).valid = true := by
  cases exec_ends h with
  | failed | answered => simp
  | pushed => simp [Instr.port, pushElement]
  | popped => simp [Instr.port, popElement]
  | stored => simp
  | created | refused => simp [Instr.port]

@[simp] theorem noResponseX_inst (s : State) : (noResponseX s).inst = s.inst := by unfold noResponseX; split <;> simp
@[simp] theorem noResponseX_initialized (s : State) : (noResponseX s).initialized = s.initialized := by
  unfold noResponseX; split <;> simp
@[simp] theorem noResponseX_capacity (s : State) : (noResponseX s).capacity = s.capacity := by
  unfold noResponseX; split <;> simp
@[simp] theorem noResponseX_writeCursor (s : State) : (noResponseX s).writeCursor = s.writeCursor := by
  unfold noResponseX; split <;> simp
@[simp] theorem noResponseX_readCursor (s : State) : (noResponseX s).readCursor = s.readCursor := by
  unfold noResponseX; split <;> simp
@[simp] theorem noResponseX_count (s : State) : (noResponseX s).count = s.count := by unfold noResponseX; split <;> simp
@[simp] theorem noResponseX_storage (s : State) : (noResponseX s).storage = s.storage := by
  unfold noResponseX; split <;> simp
@[simp] theorem noResponseX_fRsp (s : State) : (noResponseX s).fRsp = s.fRsp := by unfold noResponseX; split <;> simp
@[simp] theorem noResponseX_inputs (s : State) : (noResponseX s).inputs = s.inputs := by
  unfold noResponseX; split <;> simp

/-- Port X shows no response, or has none to show. -/
theorem noResponseX_xRsp (s : State) :
    (s.inst.xport = true → (noResponseX s).xRsp.valid = false) ∧ (s.inst.xport = false → (noResponseX s).xRsp = s.xRsp) := by
  unfold noResponseX
  cases h : s.inst.xport <;> simp

/-- Port F's part of an edge: one command, or no response. -/
theorem edgeF_cases (inp : CycleInput) (s : State) :
    (acceptedF inp = true ∧ edgeF inp s = exec (decodeF s.inst.dw inp.f.cmd) s) ∨
    (acceptedF inp = false ∧ edgeF inp s = .next (noResponse .f s)) := by
  unfold edgeF
  cases acceptedF inp <;> simp

/-- Port X's part of an edge: one command, or no response. -/
theorem edgeX_cases (inp : CycleInput) (s : State) :
    (acceptedX s.inst inp = true ∧ edgeX inp s = exec (decodeX s.inst.dw inp.x.cmd) s) ∨
    (acceptedX s.inst inp = false ∧ edgeX inp s = .next (noResponseX s)) := by
  unfold edgeX
  cases acceptedX s.inst inp <;> simp

/-- Port F's part always has a next state; port X's registers, the parameters and the inputs are untouched. -/
theorem edgeF_answers (inp : CycleInput) (s : State) : ∃ t, edgeF inp s = .next t ∧ t.inst = s.inst ∧
    t.inputs = s.inputs ∧ t.xRsp = s.xRsp ∧ t.fRsp.valid = acceptedF inp := by
  rcases edgeF_cases inp s with ⟨ha, he⟩ | ⟨ha, he⟩
  · obtain ⟨t, ht⟩ := exec_answers (decodeF s.inst.dw inp.f.cmd) s
    have hk := exec_keeps ht
    rw [decodeF_port] at hk
    exact ⟨t, he.trans ht, hk.1, hk.2.1, hk.2.2.1, hk.2.2.2.trans ha.symm⟩
  · exact ⟨_, he, by simp [ha]⟩

/-- Port X's part always has a next state; port F's registers, the parameters and the inputs are untouched. -/
theorem edgeX_answers (inp : CycleInput) (s : State) : ∃ t, edgeX inp s = .next t ∧ t.inst = s.inst ∧
    t.inputs = s.inputs ∧ t.fRsp = s.fRsp ∧ (s.inst.xport = true → t.xRsp.valid = acceptedX s.inst inp) := by
  rcases edgeX_cases inp s with ⟨ha, he⟩ | ⟨ha, he⟩
  · obtain ⟨t, ht⟩ := exec_answers (decodeX s.inst.dw inp.x.cmd) s
    have hk := exec_keeps ht
    rw [decodeX_port] at hk
    exact ⟨t, he.trans ht, hk.1, hk.2.1, hk.2.2.1, fun _ => hk.2.2.2.trans ha.symm⟩
  · exact ⟨_, he, by simp, by simp, by simp, fun hx => by rw [ha]; exact (noResponseX_xRsp s).1 hx⟩

/-- Everything a cycle can do: the reset edge, or port F's part and then port X's. -/
theorem cycle_cases {inp : CycleInput} {s t : State} (h : cycle inp s = .next t) :
    (inp.rst = true ∧ t = resetEdge s) ∨
    (inp.rst = false ∧ ∃ u, edgeF inp s = .next u ∧ edgeX inp u = .next t) := by
  unfold cycle at h
  cases hr : inp.rst
  · obtain ⟨u, hu, -⟩ := edgeF_answers inp s
    rw [hr, hu] at h
    exact .inr ⟨rfl, u, hu, h⟩
  · rw [hr] at h
    exact .inl ⟨rfl, (next_injective h).symm⟩

/-- A cycle without reset, put together from its two parts. -/
theorem cycle_of_parts {inp : CycleInput} {s t u : State} (hr : inp.rst = false) (hf : edgeF inp s = .next u)
    (hx : edgeX inp u = .next t) : cycle inp s = .next t := by simp [cycle, hr, hf, hx]

/-- What a run shows, one cycle at a time. -/
theorem shownResponses_succ {n : Nat} {s t : State} (h : step s = .next t) :
    shownResponses (n + 1) s = shownBy t ++ shownResponses n t := by rw [shownResponses, h]

/-- The slot a command of port X stores to does not depend on the state. -/
theorem storeIndex_decodeX (dw : Nat) (c : Command) (s t : State) :
    storeIndex (decodeX dw c) s = storeIndex (decodeX dw c) t := by unfold decodeX; split <;> rfl

end Sys2Proof.Machine
end

