-- ==== Sys2Proof/Tests/Slice0.lean ====
section
/-!
SUPPORT. The model's own tests. Expected values come from spec/95_test_vectors.md (its row is named in each comment), from the
encoding tables of spec/30_encoding.md, or by hand from the rule named. A value the spec leaves unspecified is never compared.
The last section gives, for every statement with hypotheses, a concrete state and operands that meet them.
-/
namespace Sys2Proof.Machine.Tests

/-! ## Helpers -/

/-- An initialized buffer on an instance with both ports, `DW = 8`, written as the vectors write it. -/
def buf (cap wc rc n : Reg16) (m : Memory) : State :=
  { State.resetOf { ew := 1, depth := 65535, xport := true } with
    initialized := true, capacity := cap, writeCursor := wc, readCursor := rc, count := n, storage := m }

/-- An uninitialized controller with `DEPTH = 16` and both ports. -/
def fresh16 : State := State.resetOf { ew := 1, depth := 16, xport := true }

/-- `1 4 1 1 4`, storage `[FF 22 33 5A]` (Q4). -/
def full4 : State := buf 4 1 1 4 [(0, 0xFF), (1, 0x22), (2, 0x33), (3, 0x5A)]

/-- `1 4 3 1 2`, storage `[? 22 33 ?]` (Q2). -/
def mid4 : State := buf 4 3 1 2 [(1, 0x22), (2, 0x33)]

/-- `1 4 2 2 0` (Q7). -/
def empty4 : State := buf 4 2 2 0 []

/-- `1 4 1 0 1`, storage `[10 ? ? ?]` (the state of A1 to A12). -/
def one4 : State := buf 4 1 0 1 [(0, 0x10)]

/-- `initialized capacity writeCursor readCursor count` after a result. -/
def regs : Result → Option (Nat × Nat × Nat × Nat × Nat)
  | .next t => some (t.initialized.toNat, t.capacity.toNat, t.writeCursor.toNat, t.readCursor.toNat, t.count.toNat)
  | .fault _ => none
  | .refused _ => none

/-- The promised storage content after a result. -/
def slots : Result → Option Memory
  | .next t => some t.storage
  | .fault _ => none
  | .refused _ => none

/-- The response's `rsp_valid` and status code on a port after a result. -/
def status (p : Port) : Result → Option (Bool × Nat)
  | .next t => some ((t.rsp p).valid, (t.rsp p).status.toNat)
  | .fault _ => none
  | .refused _ => none

/-- The response data on a port after a result. -/
def data (p : Port) : Result → Option Element
  | .next t => some (t.rsp p).data
  | .fault _ => none
  | .refused _ => none

/-- Whether a port shows a response after a result. -/
def shows (p : Port) : Result → Option Bool
  | .next t => some (t.rsp p).valid
  | .fault _ => none
  | .refused _ => none

/-- The pins `initialized`, `empty`, `full` of a state. -/
def pins (s : State) : Bool × Bool × Bool := (initializedPin s, emptyPin s, fullPin s)

/-! ## Well-formedness: one ill-formed term for each check -/

theorem test_wf_enqueue_too_wide : Instr.wellFormed 8 (.enqueue 256) = false := by decide
theorem test_wf_writeAt_too_wide : Instr.wellFormed 8 (.writeAt 0 256) = false := by decide
theorem test_wf_xWriteAt_too_wide : Instr.wellFormed 8 (.xWriteAt 0 256) = false := by decide
theorem test_wf_illegal_is_nop : Instr.wellFormed 8 (.illegal 0) = false := by decide
theorem test_wf_illegal_is_isFull : Instr.wellFormed 8 (.illegal 7) = false := by decide
theorem test_wf_xIllegal_is_writeAt : Instr.wellFormed 8 (.xIllegal 4) = false := by decide
theorem test_wf_boundaries : Instr.wellFormed 8 (.enqueue 255) = true ∧ Instr.wellFormed 8 (.illegal 8) = true ∧
    Instr.wellFormed 16 (.xWriteAt 65535 65535) = true ∧ Instr.wellFormed 8 (.xIllegal 15) = true := by decide

/-! ## Decoding: words written out from R56 (`op` in `[27:24]`, `arg` in `[23:8]`, `wdata` in `[7:0]`), R60, R61, R70 -/

theorem test_decode_nop : decodeTableWord 28 0b0000_0000000000000000_00000000 = some .nop := by decide
theorem test_decode_nop_ignores : decodeTableWord 28 0x0FFFFFF = some .nop := by decide
theorem test_decode_create : decodeTableWord 28 0b0001_1000000000000001_00000000 = some (.create 0x8001) := by decide
theorem test_decode_create_ignores : decodeTableWord 28 0x10004FF = some (.create 4) := by decide
theorem test_decode_enqueue : decodeTableWord 28 0b0010_0000000000000000_10000001 = some (.enqueue 0x81) := by decide
theorem test_decode_enqueue_ignores : decodeTableWord 28 0x2FFFF10 = some (.enqueue 0x10) := by decide
theorem test_decode_dequeue : decodeTableWord 28 0x30003AB = some .dequeue := by decide
theorem test_decode_writeAt : decodeTableWord 28 0b0100_1000000000000010_01000001 = some (.writeAt 0x8002 0x41) := by
  decide
theorem test_decode_readAt : decodeTableWord 28 0b0101_0100000000000001_11111111 = some (.readAt 0x4001) := by decide
theorem test_decode_isEmpty : decodeTableWord 28 0b0110_0000000000000000_00000000 = some .isEmpty := by decide
theorem test_decode_isFull : decodeTableWord 28 0b0111_0000000000000000_00000000 = some .isFull := by decide
theorem test_decode_illegal : decodeTableWord 28 0b1000_0000000000000000_00000000 = some (.illegal 8) ∧
    decodeTableWord 28 0xC000233 = some (.illegal 12) ∧ decodeTableWord 28 0xF000000 = some (.illegal 15) := by decide
theorem test_decode_xNop : decode .x 8 0x0000000 = .ok .xNop := by rfl
theorem test_decode_xWriteAt : decode .x 8 0b0100_0000000000000011_00110011 = .ok (.xWriteAt 3 0x33) := by rfl
theorem test_decode_xReadAt : decode .x 8 0b0101_0000000000000010_00000000 = .ok (.xReadAt 2) := by rfl
theorem test_decode_x_illegal : decode .x 8 0x1000400 = .ok .xIllegalCreate ∧ decode .x 8 0x2000001 = .ok .xIllegalEnqueue ∧
    decode .x 8 0x3000000 = .ok .xIllegalDequeue ∧ decode .x 8 0x6000000 = .ok .xIllegalIsEmpty ∧
    decode .x 8 0x7000000 = .ok .xIllegalIsFull ∧ decode .x 8 0xA000000 = .ok (.xIllegal 10) := ⟨rfl, rfl, rfl, rfl, rfl, rfl⟩
theorem test_decode_too_wide : decode .f 8 0x10000000 = .error .wordTooWide := by rfl
/-- `EW = 2`: `op` moves to `[35:32]`, `arg` to `[31:16]` (R56). -/
theorem test_decode_dw16 : decode .f 16 0x40002ABCD = .ok (.writeAt 2 0xABCD) := by rfl
theorem test_encode : encode 8 (.writeAt 0xFFFE 0xFE) = 0x4FFFEFE ∧ encode 8 (.create 65535) = 0x1FFFF00 ∧
    encode 8 (.xReadAt 2) = 0x5000200 := by decide
/-- R67, as written in spec/95_test_vectors.md. -/
theorem test_text : textOf (.create 4) = "CREATE 4" ∧ textOf (.xReadAt 2) = "X: READ_AT 2" ∧
    textOf (.writeAt 2 1) = "WRITE_AT 2, 1" := by decide

/-! ## One step -/

/-- K7: a CREATE over a live buffer loses the queued elements. -/
theorem test_create_over_live : regs (exec (.create 8) mid4) = some (1, 8, 0, 0, 0) ∧
    slots (exec (.create 8) mid4) = some [] ∧ status .f (exec (.create 8) mid4) = some (true, 0) := by decide
/-- K5, K8: above `DEPTH`, and 0 over a live buffer. -/
theorem test_create_refused : status .f (exec (.create 17) fresh16) = some (true, 1) ∧
    regs (exec (.create 0) mid4) = some (0, 0, 0, 0, 0) ∧ status .f (exec (.create 16) fresh16) = some (true, 0) := by
  decide
/-- K11, X6. -/
theorem test_nop : status .f (exec .nop State.reset) = some (true, 0) ∧ regs (exec .nop mid4) = some (1, 4, 3, 1, 2) := by
  decide
/-- K15, K16. -/
theorem test_illegal : status .f (exec (.illegal 9) State.reset) = some (true, 6) ∧
    regs (exec (.illegal 12) full4) = some (1, 4, 1, 1, 4) := by decide
/-- Q2: the store goes to the old `writeCursor`, which wraps. -/
theorem test_enqueue_wraps : regs (exec (.enqueue 0x5A) mid4) = some (1, 4, 0, 1, 3) ∧
    slots (exec (.enqueue 0x5A) mid4) = some [(1, 0x22), (2, 0x33), (3, 0x5A)] := by decide
/-- Q4, Q15, Q12. -/
theorem test_enqueue_refused : status .f (exec (.enqueue 0x77) full4) = some (true, 3) ∧
    slots (exec (.enqueue 0x77) full4) = some full4.storage ∧ status .f (exec (.enqueue 1) State.reset) = some (true, 2) ∧
    regs (exec (.enqueue 2) (buf 65535 65534 0 65534 [])) = some (1, 65535, 0, 0, 65535) := by decide
/-- Q5, Q14: the element at the old `readCursor`. -/
theorem test_dequeue : data .f (exec .dequeue full4) = some 0x22 ∧ regs (exec .dequeue full4) = some (1, 4, 1, 2, 3) ∧
    slots (exec .dequeue full4) = some full4.storage ∧
    data .f (exec .dequeue (buf 65535 7 65534 8 [(65534, 0x9C)])) = some 0x9C ∧
    regs (exec .dequeue (buf 65535 7 65534 8 [(65534, 0x9C)])) = some (1, 65535, 7, 0, 7) := by decide
/-- Q7, Q16. -/
theorem test_dequeue_refused : status .f (exec .dequeue empty4) = some (true, 4) ∧
    status .f (exec .dequeue State.reset) = some (true, 2) ∧ regs (exec .dequeue empty4) = some (1, 4, 2, 2, 0) := by decide
/-- W18: the queued element is replaced, the flags stay. -/
theorem test_writeAt : regs (exec (.writeAt 1 0) full4) = some (1, 4, 1, 1, 4) ∧
    slots (exec (.writeAt 1 0) full4) = some [(0, 0xFF), (1, 0), (2, 0x33), (3, 0x5A)] := by decide
/-- W4, W11, W12, W20. -/
theorem test_writeAt_refused : status .f (exec (.writeAt 4 0x11) full4) = some (true, 5) ∧
    slots (exec (.writeAt 4 0x11) full4) = some full4.storage ∧
    status .f (exec (.writeAt 65535 0xFF) (buf 65535 0 0 0 [])) = some (true, 5) ∧
    status .f (exec (.writeAt 0 1) State.reset) = some (true, 2) := by decide
/-- W3, W7 (whose data is unspecified). -/
theorem test_readAt : data .f (exec (.readAt 3) full4) = some 0x5A ∧ status .f (exec (.readAt 0) mid4) = some (true, 0) ∧
    regs (exec (.readAt 3) full4) = some (1, 4, 1, 1, 4) := by decide
/-- W6, W13. -/
theorem test_readAt_refused : status .f (exec (.readAt 65535) full4) = some (true, 5) ∧
    status .f (exec (.readAt 4) full4) = some (true, 5) ∧ status .f (exec (.readAt 65535) State.reset) = some (true, 2) := by
  decide
/-- T1 to T5. -/
theorem test_isEmpty : data .f (exec .isEmpty empty4) = some 1 ∧ data .f (exec .isEmpty mid4) = some 0 ∧
    data .f (exec .isEmpty full4) = some 0 ∧ status .f (exec .isEmpty State.reset) = some (true, 2) := by decide
theorem test_isFull : data .f (exec .isFull empty4) = some 0 ∧ data .f (exec .isFull mid4) = some 0 ∧
    data .f (exec .isFull full4) = some 1 ∧ status .f (exec .isFull State.reset) = some (true, 2) := by decide
/-- T1, T3, T4, T5: a fresh controller has `count == capacity`, yet neither flag. -/
theorem test_pins : pins State.reset = (false, false, false) ∧ pins empty4 = (true, true, false) ∧
    pins mid4 = (true, false, false) ∧ pins full4 = (true, false, true) := by decide
theorem test_xNop : status .x (exec .xNop one4) = some (true, 0) ∧ status .f (exec .xNop one4) = some (false, 0) := by decide
theorem test_xWriteAt : slots (exec (.xWriteAt 3 0x33) one4) = some [(0, 0x10), (3, 0x33)] ∧
    status .x (exec (.xWriteAt 4 0x33) one4) = some (true, 5) ∧ status .x (exec (.xWriteAt 0 1) fresh16) = some (true, 2) := by
  decide
theorem test_xReadAt : data .x (exec (.xReadAt 0) one4) = some 0x10 ∧ status .x (exec (.xReadAt 4) one4) = some (true, 5) ∧
    status .f (exec (.xReadAt 0) one4) = some (false, 0) := by decide
/-- R103: each answers `IllegalCommand` and changes nothing. -/
theorem test_x_illegal : ∀ i ∈ [Instr.xIllegalCreate, .xIllegalEnqueue, .xIllegalDequeue, .xIllegalIsEmpty, .xIllegalIsFull,
    .xIllegal 9], status .x (exec i mid4) = some (true, 6) ∧ regs (exec i mid4) = some (1, 4, 3, 1, 2) ∧
      slots (exec i mid4) = some mid4.storage := by decide
/-- The table of IncMod (95 section 2.2). -/
theorem test_incMod : incMod 0 1 = 0 ∧ incMod 0 2 = 1 ∧ incMod 1 2 = 0 ∧ incMod 6 8 = 7 ∧ incMod 7 8 = 0 ∧
    incMod 0 65535 = 1 ∧ incMod 65533 65535 = 65534 ∧ incMod 65534 65535 = 0 := by decide
/-- R39, `EW = 2`: the low byte first. -/
theorem test_byteLayout : byteLayout 2 [(1, 0xABCD)] = [(2, 0xCD), (3, 0xAB)] := by decide

/-- S6 step 3 (`0x05C`) and the status field of S7 (`0x5??`). -/
theorem test_responseWord : responseWord 8 { valid := true, status := 0, data := 0x5C } = 0x05C ∧
    responseWord 8 { valid := true, status := Status.code .indexOutOfRange, data := 0 } = 0x500 := by decide

/-! ## Cycles with two ports (95 section 2.7) -/

/-- A1. -/
theorem test_both_enqueue_read : data .x (cycle (presentBoth ⟨2, 0, 0x20⟩ ⟨5, 1, 0⟩) one4) = some 0x20 ∧
    regs (cycle (presentBoth ⟨2, 0, 0x20⟩ ⟨5, 1, 0⟩) one4) = some (1, 4, 2, 0, 2) := by decide
/-- A2. -/
theorem test_both_dequeue_write : data .f (cycle (presentBoth ⟨3, 0, 0⟩ ⟨4, 0, 0xAA⟩) one4) = some 0x10 ∧
    slots (cycle (presentBoth ⟨3, 0, 0⟩ ⟨4, 0, 0xAA⟩) one4) = some [(0, 0xAA)] := by decide
/-- A5, A6: port X is checked against the new capacity. -/
theorem test_both_create : status .x (cycle (presentBoth ⟨1, 2, 0⟩ ⟨5, 3, 0⟩) one4) = some (true, 5) ∧
    status .x (cycle (presentBoth ⟨1, 0, 0⟩ ⟨4, 0, 0xAA⟩) one4) = some (true, 2) := by decide
/-- A7, A8: stalled. -/
theorem test_both_stall : shows .x (cycle (presentBoth ⟨2, 0, 0x20⟩ ⟨4, 3, 0x33⟩) one4) = some false ∧
    slots (cycle (presentBoth ⟨2, 0, 0x20⟩ ⟨4, 3, 0x33⟩) one4) = some [(0, 0x10), (1, 0x20)] ∧
    shows .x (cycle (presentBoth ⟨3, 0, 0⟩ ⟨5, 0, 0⟩) one4) = some false := by decide
/-- A11: port F idle. -/
theorem test_x_alone : status .x (cycle (presentX ⟨6, 0, 0⟩) one4) = some (true, 6) ∧
    shows .f (cycle (presentX ⟨6, 0, 0⟩) one4) = some false := by decide
/-- The full table of `x_ready`: with a valid F command the four 0 entries and no other. -/
theorem test_xReady_table : ∀ a b : Opcode, xReady (presentBoth ⟨a, 0, 0⟩ ⟨b, 0, 0⟩) =
    !((a == 2 || a == 4) && b == 4 || (a == 3 || a == 5) && b == 5) := by decide

/-! ## Steps: 95 section 2.8, and the first command after reset -/

theorem test_step_create : regs (step (State.reset.withFetchWord 28 0x1000200)) = some (1, 2, 0, 0, 0) ∧
    status .f (step (State.reset.withFetchWord 28 0x1000200)) = some (true, 0) := by decide
theorem test_step_enqueue_uninitialized :
    status .f (step (State.reset.withFetchWord 28 0x2000001)) = some (true, 2) := by decide
/-- Cycle 5: the command presented with `rst == 1` is dropped. -/
theorem test_step_reset : regs (step ((buf 2 1 1 0 [(0, 0x31)]).setInputs
      [{ rst := true, f := { valid := true, cmd := ⟨2, 0, 0x32⟩ }, x := idlePins }])) = some (0, 0, 0, 0, 0) ∧
    shows .f (step ((buf 2 1 1 0 [(0, 0x31)]).setInputs
      [{ rst := true, f := { valid := true, cmd := ⟨2, 0, 0x32⟩ }, x := idlePins }])) = some false := by decide
/-- Cycle 3: an idle cycle. -/
theorem test_step_idle : regs (step mid4) = some (1, 4, 3, 1, 2) ∧ shows .f (step mid4) = some false := by decide

/-! ## Witnesses: the hypotheses of each statement can be met, clause by clause -/

theorem exec_next (i : Instr) (s : State) : ∃ t, exec i s = .next t := by cases i <;> exact ⟨_, rfl⟩

theorem witness_DecodeOfEncodeIsTheCommand :
    ∀ i ∈ [Instr.nop, .create 65535, .enqueue 255, .dequeue, .writeAt 65535 255, .readAt 65535, .isEmpty, .isFull, .illegal 8,
      .xNop, .xWriteAt 65535 255, .xReadAt 65535, .xIllegalCreate, .xIllegalEnqueue, .xIllegalDequeue, .xIllegalIsEmpty,
      .xIllegalIsFull, .xIllegal 15], i.wellFormed 8 = true := by decide
theorem witness_EncodeOfDecodeKeepsUsedFields :
    decode .f 8 0xFFFFFFF = .ok (.illegal 15) ∧ decode .x 8 0x4FFFFFF = .ok (.xWriteAt 65535 255) := ⟨rfl, rfl⟩
theorem witness_IgnoredFieldsDoNotMatter :
    usesArg .f 3 = false ∧ usesWdata .f 3 = false ∧ usesArg .x 5 = true ∧ (0x1FF % 2 ^ 8 = 0xFF % 2 ^ 8) ∧
    (presentX ⟨5, 0, 0⟩).f.valid = false ∧ (presentF ⟨3, 0, 0⟩).x.valid = false := by decide
theorem witness_StepRunsTheCommandOnPortF :
    decodeF 8 ⟨5, 3, 0⟩ = .readAt 3 ∧ (∃ t, exec (.readAt 3) (full4.setInputs []) = .next t) ∧
    (presentF ⟨5, 3, 0⟩).rst = false ∧ (presentF ⟨5, 3, 0⟩).f.valid = true ∧ (full4.setInputs [presentF ⟨5, 3, 0⟩]).inputs =
      [presentF ⟨5, 3, 0⟩] ∧
    State.reset.inst.xport = false ∧ full4.inst.xport = true ∧ (presentF ⟨5, 3, 0⟩).x.valid = false ∧
    xReady (presentBoth ⟨5, 3, 0⟩ ⟨5, 3, 0⟩) = false ∧ xReady (presentBoth ⟨5, 3, 0⟩ ⟨4, 3, 0⟩) = true :=
  ⟨rfl, exec_next _ _, rfl, rfl, rfl, rfl, rfl, rfl, rfl, rfl⟩
theorem witness_FetchedWordRuns : State.reset.inst.Wf ∧ decodeTableWord 28 0x2000031 = some (.enqueue 0x31) ∧
    ∃ t, exec (.enqueue 0x31) (State.reset.setInputs State.reset.inputs.tail) = .next t :=
  ⟨by decide, by decide, exec_next _ _⟩
theorem witness_CycleFunction_both : acceptedF (presentBoth ⟨2, 0, 0⟩ ⟨5, 0, 0⟩) = true ∧
    acceptedX one4.inst (presentBoth ⟨2, 0, 0⟩ ⟨5, 0, 0⟩) = true ∧
    ∃ s₁ s₂, exec (.enqueue 0) one4 = .next s₁ ∧ exec (.xReadAt 0) s₁ = .next s₂ :=
  ⟨rfl, rfl, (exec_next _ _).elim fun s₁ h => (exec_next _ s₁).elim fun s₂ h' => ⟨s₁, s₂, h, h'⟩⟩
theorem witness_CycleFunction_none : acceptedF idleInput = false ∧ acceptedX one4.inst idleInput = false ∧
    idleInput.rst = false ∧ ∃ s₁ s₂, s₁ = noResponse .f one4 ∧ s₂ = noResponseX s₁ := ⟨rfl, rfl, rfl, _, _, rfl, rfl⟩
theorem witness_ResetEdgeWins :
    ∃ inp rest, (full4.setInputs [{ presentF ⟨2, 0, 0⟩ with rst := true }]).inputs = inp :: rest ∧ inp.rst = true ∧
      full4.inst.xport = true := ⟨_, _, rfl, rfl, rfl⟩
theorem witness_ResetMeetsTheInvariant : Instance.Wf { ew := 1, depth := 1, xport := false } ∧
    Instance.Wf { ew := 1, depth := 65535, xport := true } ∧ Instance.Wf { ew := 65536, depth := 1, xport := true } := by
  decide
theorem witness_StepKeepsTheInvariant : StateInv full4 ∧ StateInv mid4 ∧ ∃ t, step full4 = .next t :=
  ⟨by decide, by decide, _, rfl⟩
theorem witness_ReachableRegistersAreInRange :
    Instance.Wf { ew := 1, depth := 65535, xport := true } ∧
    (∃ t, runCycles 2 ((State.resetOf { ew := 1, depth := 65535, xport := true }).setInputs
      [presentF ⟨1, 4, 0⟩, presentBoth ⟨2, 0, 7⟩ ⟨5, 0, 0⟩]) = .next t ∧ t.initialized = true) ∧
    (∃ t, runCycles 1 ((State.resetOf { ew := 1, depth := 65535, xport := true }).setInputs [presentF ⟨1, 0, 0⟩]) =
      .next t ∧ t.initialized = false) := ⟨by decide, ⟨_, rfl, rfl⟩, ⟨_, rfl, rfl⟩⟩
theorem witness_EmptyAndFullFromCount :
    ∀ s ∈ [empty4, mid4, full4, buf 1 0 0 0 [], buf 1 0 0 1 [(0, 7)], buf 65535 0 0 65535 []],
      BufferInv s ∧ s.initialized = true := by decide
theorem witness_CountLaw : BufferInv mid4 ∧ (∃ t, exec (.enqueue 7) mid4 = .next t ∧ t.fRsp.status = Status.code .ok) ∧
    (∃ t, exec .dequeue mid4 = .next t ∧ t.fRsp.status = Status.code .ok) ∧ isCreate (.create 4) = true ∧
    (∃ t, exec (.enqueue 7) full4 = .next t ∧ t.fRsp.status ≠ Status.code .ok) :=
  ⟨by decide, ⟨_, rfl, rfl⟩, ⟨_, rfl, rfl⟩, rfl, ⟨_, rfl, by decide⟩⟩
theorem witness_FrameOfEveryCommand : (∃ t, exec (.writeAt 0 7) mid4 = .next t) ∧ isCreate (.writeAt 0 7) = false ∧
    storeIndex (.writeAt 0 7) mid4 ≠ some 1 ∧ storeIndex (.enqueue 7) mid4 = some 3 := ⟨⟨_, rfl⟩, rfl, by decide, by decide⟩
theorem witness_OnlyCreateAndResetWriteControl : ∃ t, cycle (presentBoth ⟨2, 0, 7⟩ ⟨1, 0, 0⟩) mid4 = .next t ∧
    (presentBoth ⟨2, 0, 7⟩ ⟨1, 0, 0⟩).rst = false ∧ ¬((2 : Opcode) = 1) := ⟨_, rfl, rfl, by decide⟩
theorem witness_WriteIsVisibleToTheNextRead : full4.initialized = true ∧ (0 : Reg16).toNat < full4.capacity.toNat ∧
    (3 : Reg16).toNat < full4.capacity.toNat := by decide
theorem witness_DequeuedSlotKeepsItsValue : StateInv full4 ∧ full4.initialized = true ∧ full4.count ≠ 0 := by decide
theorem witness_ByteLayoutIsLittleEndian : Memory.wf full4.storage = true ∧ Memory.wf [] = true ∧
    Memory.wf [(1, 0), (0, 0)] = false := by decide
theorem witness_CreateMakesOrRefusesABuffer : (1 : Reg16).toNat ≠ 0 ∧ (1 : Reg16).toNat ≤ fresh16.inst.depth ∧
    (16 : Reg16).toNat ≤ fresh16.inst.depth ∧ (0 : Reg16).toNat = 0 ∧ fresh16.inst.depth < (17 : Reg16).toNat := by decide
theorem witness_NopOnlyAnswersOk : Instr.xNop = .nop ∨ Instr.xNop = .xNop := by decide
theorem witness_IllegalCommandsOnlyAnswer : 8 ≤ (8 : Opcode).toNat ∧ 8 ≤ (15 : Opcode).toNat ∧
    ∃ op : Opcode, Instr.xIllegal 8 = .illegal op ∨ Instr.xIllegal 8 = .xIllegal op := ⟨by decide, by decide, 8, .inr rfl⟩
theorem witness_IncModTwoForms : BufferInv mid4 ∧ mid4.initialized = true ∧
    (0 : Reg16).toNat < (1 : Reg16).toNat ∧ (65534 : Reg16).toNat < (65535 : Reg16).toNat := by decide
theorem witness_EnqueueAppendsOrFails : fresh16.initialized = false ∧
    (full4.initialized = true ∧ full4.count = full4.capacity ∧ full4.writeCursor = full4.readCursor) ∧
    (mid4.initialized = true ∧ ¬(mid4.count = mid4.capacity ∧ mid4.writeCursor = mid4.readCursor) ∧ BufferInv mid4) ∧
    (¬(empty4.count = empty4.capacity ∧ empty4.writeCursor = empty4.readCursor) ∧ BufferInv empty4) := by decide
theorem witness_DequeueRemovesOrFails : fresh16.initialized = false ∧
    (empty4.initialized = true ∧ empty4.count = 0 ∧ empty4.writeCursor = empty4.readCursor) ∧
    (full4.initialized = true ∧ ¬(full4.count = 0 ∧ full4.writeCursor = full4.readCursor) ∧ BufferInv full4 ∧
      full4.storage.read (dequeueIndex full4).toNat = some 0x22) := by decide
theorem witness_FifoCommandsRefineTheQueue :
    (StateInv mid4 ∧ mid4.initialized = true ∧ (queue mid4).length < mid4.capacity.toNat ∧ queue mid4 = [some 0x22, some 0x33]) ∧
    (StateInv full4 ∧ (queue full4).length = full4.capacity.toNat) ∧
    (StateInv empty4 ∧ empty4.initialized = true ∧ queue empty4 = []) := ⟨by decide, by decide, by decide⟩
theorem witness_FifoLaw : BufferInv mid4 ∧ OccupiedInv mid4 ∧ mid4.initialized = true ∧
    (∀ i ∈ [Instr.enqueue 7, .dequeue, .xReadAt 1], isCreate i = false ∧ isWriteAt i = false) ∧
    (∃ t, execAll [.enqueue 7, .dequeue, .xReadAt 1] mid4 = .next t) ∧
    (4 : Reg16).toNat ≠ 0 ∧ (4 : Reg16).toNat ≤ fresh16.inst.depth ∧ [7, 8, 9, 10].length ≤ (4 : Reg16).toNat :=
  ⟨by decide, by decide, rfl, by decide, ⟨_, rfl⟩, by decide, by decide, by decide⟩
theorem witness_FillAndDrain : (1 : Reg16).toNat ≠ 0 ∧ (1 : Reg16).toNat ≤ fresh16.inst.depth ∧
    [7].length = (1 : Reg16).toNat ∧ [7, 8].length = (2 : Reg16).toNat := by decide
theorem witness_CursorLaw : (3 : Reg16).toNat ≠ 0 ∧ (3 : Reg16).toNat ≤ fresh16.inst.depth ∧
    (∀ i ∈ [Instr.enqueue 7, .writeAt 0 1, .dequeue], isCreate i = false) ∧
    ∃ t, execAll (.create 3 :: [.enqueue 7, .writeAt 0 1, .dequeue]) fresh16 = .next t :=
  ⟨by decide, by decide, by decide, _, rfl⟩
theorem witness_WriteAtStoresOneSlot : fresh16.initialized = false ∧ full4.initialized = true ∧
    full4.capacity.toNat ≤ (4 : Reg16).toNat ∧ (3 : Reg16).toNat < full4.capacity.toNat ∧
    (Instr.xWriteAt 3 7 = .writeAt 3 7 ∨ Instr.xWriteAt 3 7 = .xWriteAt 3 7) := by decide
theorem witness_ReadAtReturnsTheSlot : fresh16.initialized = false ∧ full4.initialized = true ∧
    full4.capacity.toNat ≤ (4 : Reg16).toNat ∧ (3 : Reg16).toNat < full4.capacity.toNat ∧
    full4.storage.read (absoluteIndex 3).toNat = some 0x5A ∧ mid4.storage.read (absoluteIndex 0).toNat = none ∧
    (Instr.readAt 3 = .readAt 3 ∨ Instr.readAt 3 = .xReadAt 3) := by decide
/-- Slot 2 is occupied, slot 0 is not. -/
theorem witness_IndexedCommandsOnTheQueue : StateInv mid4 ∧ mid4.initialized = true ∧
    (0 : Reg16).toNat < mid4.capacity.toNat ∧ (3 : Reg16).toNat < mid4.capacity.toNat ∧
    aheadOfReadCursor mid4 2 < mid4.count.toNat ∧ ¬(aheadOfReadCursor mid4 0 < mid4.count.toNat) := by decide
theorem witness_StatusCommandsReportThePredicates : fresh16.initialized = false ∧ mid4.initialized = true := by decide
theorem witness_StatusCommandsArePure :
    ∃ t t', exec .isEmpty mid4 = .next t ∧ exec .isEmpty (memWrite mid4 0 7) = .next t' ∧
      SameRegisters mid4 (memWrite mid4 0 7) ∧ t.fRsp.status = Status.code .ok :=
  ⟨_, _, rfl, rfl, ⟨rfl, rfl, rfl, rfl, rfl⟩, rfl⟩
/-- The four rows of R100. -/
theorem witness_FlagTruthTable : (BufferInv fresh16 ∧ fresh16.initialized = false) ∧
    (BufferInv empty4 ∧ empty4.initialized = true ∧ empty4.count = 0) ∧
    (BufferInv mid4 ∧ mid4.initialized = true ∧ mid4.count ≠ 0 ∧ mid4.count ≠ mid4.capacity) ∧
    (BufferInv full4 ∧ full4.initialized = true ∧ full4.count = full4.capacity) ∧
    (BufferInv (buf 1 0 0 1 [(0, 7)]) ∧ (buf 1 0 0 1 [(0, 7)]).count = (buf 1 0 0 1 [(0, 7)]).capacity) :=
  ⟨by decide, by decide, by decide, by decide, by decide⟩
theorem witness_PortXIsTheIndexedSubset : (∃ t, exec (decodeF 8 ⟨5, 3, 0⟩) full4 = .next t ∧
      t.fRsp.status = Status.code .ok) ∧ full4.storage.read (3 : Reg16).toNat = some 0x5A ∧
    ¬((2 : Opcode) = 0 ∨ (2 : Opcode) = 4 ∨ (2 : Opcode) = 5) := ⟨⟨_, rfl, rfl⟩, by decide, by decide⟩
theorem witness_OnlyAcceptedCommandsAct :
    (acceptedF (presentX ⟨5, 0, 0⟩) = false ∧ ∃ t, cycle (presentX ⟨5, 0, 0⟩) one4 = .next t) ∧
    (acceptedX one4.inst (presentBoth ⟨5, 0, 0⟩ ⟨5, 0, 0⟩) = false ∧
      ∃ t, cycle (presentBoth ⟨5, 0, 0⟩ ⟨5, 0, 0⟩) one4 = .next t) := ⟨⟨rfl, _, rfl⟩, rfl, _, rfl⟩
theorem witness_SameSlotSameCycle : one4.inst.xport = true ∧ BufferInv one4 ∧ one4.initialized = true ∧
    isFull one4 = false ∧ isEmpty one4 = false ∧ one4.storage.read one4.readCursor.toNat = some 0x10 ∧
    (0 : Reg16).toNat < one4.capacity.toNat ∧ one4.storage.read (0 : Reg16).toNat = some 0x10 ∧
    one4.inst.depth < 65536 ∧ (2 : Reg16).toNat ≤ (3 : Reg16).toNat ∧ (1 : Reg16).toNat < (2 : Reg16).toNat := by decide
theorem witness_PortXCanStarve : one4.inst.xport = true ∧ needX 5 ≠ .none ∧ needX 4 ≠ .none ∧
    (∀ cf ∈ [(⟨5, 0, 0⟩ : Command), ⟨3, 0, 0⟩], needF cf.op = needX 5) ∧
    (∀ cf ∈ [(⟨2, 0, 0⟩ : Command), ⟨4, 0, 0⟩], needF cf.op = needX 4) := by decide
theorem witness_PortFIsNotAlteredByPortX :
    (∃ t t', cycle (presentBoth ⟨3, 0, 0⟩ ⟨4, 0, 0xAA⟩) one4 = .next t ∧
      cycle { presentBoth ⟨3, 0, 0⟩ ⟨4, 0, 0xAA⟩ with x := idlePins } one4 = .next t') ∧
    (∃ t t', (presentF ⟨3, 0, 0⟩).x.valid = false ∧ cycle (presentF ⟨3, 0, 0⟩) one4 = .next t ∧
      cycle (presentF ⟨3, 0, 0⟩) { one4 with inst := { one4.inst with xport := false } } = .next t') :=
  ⟨⟨_, _, rfl, rfl⟩, ⟨_, _, rfl, rfl, rfl⟩⟩
/-- Slot 0 is the one port X stores to in the cycle above; no store of port X is accepted with its pins idle, nor a stalled one. -/
theorem witness_PortFIsNotAlteredByPortX_slots :
    (acceptedX one4.inst (presentBoth ⟨3, 0, 0⟩ ⟨4, 0, 0xAA⟩) = true ∧
      storeIndex (decodeX 8 ⟨4, 0, 0xAA⟩) one4 = some 0 ∧ storeIndex (decodeX 8 ⟨4, 0, 0xAA⟩) one4 ≠ some 1) ∧
    acceptedX one4.inst { presentBoth ⟨3, 0, 0⟩ ⟨4, 0, 0xAA⟩ with x := idlePins } = false ∧
    acceptedX one4.inst (presentBoth ⟨2, 0, 7⟩ ⟨4, 1, 8⟩) = false := by decide
/-- The data promised along A2 and a READ_AT after it: the old element of slot 0, none, and the value X stored there. -/
theorem test_promises : promises [.dequeue, .xWriteAt 0 0xAA, .readAt 0, .readAt 1, .isEmpty] one4 =
    [some 0x10, none, some 0xAA, none, some 1] := by decide
theorem witness_RunEqualsItsSerialisation : BufferInv one4 ∧
    (∀ inp ∈ [presentBoth ⟨3, 0, 0⟩ ⟨4, 0, 0xAA⟩, presentBoth ⟨5, 0, 0⟩ ⟨5, 0, 0⟩], inp.rst = false) ∧
    ∃ t, runCycles 2 (one4.setInputs [presentBoth ⟨3, 0, 0⟩ ⟨4, 0, 0xAA⟩, presentBoth ⟨5, 0, 0⟩ ⟨5, 0, 0⟩]) = .next t :=
  ⟨by decide, by decide, _, rfl⟩
theorem witness_ResponseWordFields : (255 : Element) < 2 ^ 8 ∧ (65535 : Element) < 2 ^ 16 := by decide
theorem witness_StatusCodes : ∃ t, exec (.xIllegal 8) one4 = .next t := exec_next _ _
theorem witness_StatusCauses : expectedStatus (.enqueue 7) full4 = .full ∧ expectedStatus .dequeue empty4 = .empty ∧
    ∃ t, exec (.enqueue 7) full4 = .next t := ⟨by decide, by decide, _, rfl⟩
theorem witness_FailureChangesNothing :
    (∃ t, exec (.enqueue 7) full4 = .next t ∧ (t.rsp .f).status ≠ Status.code .ok) ∧
    (∃ t, exec (.create 0) mid4 = .next t ∧ (t.rsp .f).status ≠ Status.code .ok) :=
  ⟨⟨_, rfl, by decide⟩, ⟨_, rfl, by decide⟩⟩
theorem witness_IdleCycleChangesNothing : ∃ inp rest, (one4.setInputs [idleInput]).inputs = inp :: rest ∧ inp.rst = false ∧
    acceptedF inp = false ∧ acceptedX one4.inst inp = false ∧ one4.inst.xport = true := ⟨_, _, rfl, rfl, rfl, rfl, rfl⟩
theorem witness_ResponseAfterOneCycle :
    (∃ t, step (one4.setInputs [presentBoth ⟨3, 0, 0⟩ ⟨4, 0, 0xAA⟩]) = .next t) ∧
    acceptedF (presentBoth ⟨3, 0, 0⟩ ⟨4, 0, 0xAA⟩) = true ∧
    acceptedX one4.inst (presentBoth ⟨3, 0, 0⟩ ⟨4, 0, 0xAA⟩) = true ∧ one4.inst.xport = true := ⟨⟨_, rfl⟩, rfl, rfl, rfl⟩
theorem witness_BootSequence : (∃ s, exec (.create 17) fresh16 = .next s) ∧ fresh16.inst.depth < (17 : Reg16).toNat ∧
    (0 : Reg16).toNat = 0 ∧ 1 ≤ (1 : Reg16).toNat ∧ 1 ≤ (16 : Reg16).toNat ∧ (16 : Reg16).toNat ≤ fresh16.inst.depth :=
  ⟨exec_next _ _, by decide, by decide, by decide, by decide, by decide⟩
theorem witness_ResponseDataWherePromised :
    ((∃ t, exec .dequeue full4 = .next t) ∧ promisedData .dequeue full4 = some 0x22 ∧
      promisedData (.readAt 0) mid4 = none ∧ promisedData .isFull full4 = some 1) ∧
    BufferInv full4 ∧ OccupiedInv full4 ∧ expectedStatus .dequeue full4 = .ok :=
  ⟨⟨exec_next _ _, by decide, by decide, by decide⟩, by decide, by decide, by decide⟩
theorem witness_AbsentPortXIsUntouched : State.reset.inst.xport = false ∧
    ∃ t, step (State.reset.setInputs [presentBoth ⟨1, 4, 0⟩ ⟨5, 0, 0⟩]) = .next t := ⟨rfl, _, rfl⟩
theorem witness_ExhaustedScheduleIsIdle : full4.inputs = [] ∧ full4.inst.xport = true := ⟨rfl, rfl⟩

end Sys2Proof.Machine.Tests
end

section
/-!
SUPPORT and proofs for spec/10_state.md. The cursor-count relation (R24) and what it says of empty and full (R25); the register
invariant `BufferInv`, kept by every command, every step and every run; what changes `count` (R21); the reset state (R32).
-/
namespace Sys2Proof.Machine

/-! ## The cursor-count relation (R24, R25) -/

/-- From slot `r`, `k` slots further around a ring of `n`, one wraps around at most once. -/
theorem add_mod_of_le {r k n : Nat} (hr : r < n) (hk : k ≤ n) :
    (r + k) % n = if r + k < n then r + k else r + k - n := by
  split
  case isTrue h => exact Nat.mod_eq_of_lt h
  case isFalse h => rw [Nat.mod_eq_sub_mod (Nat.le_of_not_lt h), Nat.mod_eq_of_lt (by omega)]

/-- One is back at slot `r` only after no slot or after all of them. -/
theorem add_mod_eq_self_iff {r k n : Nat} (hr : r < n) (hk : k ≤ n) : (r + k) % n = r ↔ k = 0 ∨ k = n := by
  rw [add_mod_of_le hr hk]
  split <;> omega

theorem BufferInv.count_le_capacity {s : State} (h : BufferInv s) : s.count.toNat ≤ s.capacity.toNat := by
  cases hi : s.initialized with
  | false => obtain ⟨hcap, -, -, hcount⟩ := h.2 hi; simp [hcap, hcount]
  | true => obtain ⟨-, -, -, -, hcount, -⟩ := h.1 hi; exact hcount

/-- Equal cursors are ambiguous between empty and full (R25). -/
theorem BufferInv.cursors_eq_iff {s : State} (h : BufferInv s) (hi : s.initialized = true) :
    s.writeCursor = s.readCursor ↔ s.count = 0 ∨ s.count = s.capacity := by
  obtain ⟨-, -, -, hrc, hcount, hrel⟩ := h.1 hi
  simpa [BitVec.toNat_eq, hrel] using add_mod_eq_self_iff hrc hcount

theorem BufferInv.isEmpty_iff {s : State} (h : BufferInv s) (hi : s.initialized = true) :
    isEmpty s = true ↔ s.count = 0 := by
  rw [isEmpty_true_iff, h.cursors_eq_iff hi]; tauto

theorem BufferInv.isFull_iff {s : State} (h : BufferInv s) (hi : s.initialized = true) :
    isFull s = true ↔ s.count = s.capacity := by
  rw [isFull_true_iff, h.cursors_eq_iff hi]; tauto

theorem BufferInv.count_lt_of_not_full {s : State} (h : BufferInv s) (hi : s.initialized = true)
    (hf : isFull s = false) : s.count.toNat < s.capacity.toNat := by
  refine lt_of_le_of_ne h.count_le_capacity fun heq => ?_
  rw [(h.isFull_iff hi).mpr (BitVec.eq_of_toNat_eq heq)] at hf
  cases hf

theorem BufferInv.count_pos_of_not_empty {s : State} (h : BufferInv s) (hi : s.initialized = true)
    (he : isEmpty s = false) : 0 < s.count.toNat := by
  refine Nat.pos_of_ne_zero fun hzero => ?_
  rw [(h.isEmpty_iff hi).mpr (BitVec.eq_of_toNat_eq hzero)] at he
  cases he

/-- `IsEmpty` and `IsFull` together would need a buffer of no slots (R25). -/
theorem BufferInv.not_empty_and_full {s : State} (h : BufferInv s) (hi : s.initialized = true) :
    ¬(isEmpty s = true ∧ isFull s = true) := by
  rintro ⟨he, hf⟩
  obtain ⟨hcap, -⟩ := h.1 hi
  rw [← (h.isFull_iff hi).mp hf, (h.isEmpty_iff hi).mp he] at hcap
  exact absurd hcap (by decide)

/-- A buffer of one slot (R25). -/
theorem BufferInv.of_capacity_one {s : State} (h : BufferInv s) (hi : s.initialized = true) (hcap : s.capacity = 1) :
    (s.count = 0 ∨ s.count = 1) ∧ s.writeCursor = 0 ∧ s.readCursor = 0 := by
  obtain ⟨-, -, hwc, hrc, hcount, -⟩ := h.1 hi
  simp only [hcap] at hwc hrc hcount
  bv_omega

/-- Settles O15: each clause is one consequence of the cursor-count relation. -/
theorem emptyAndFullFromCount : Obligations.EmptyAndFullFromCount := fun _ h hi =>
  ⟨h.cursors_eq_iff hi, h.isEmpty_iff hi, h.isFull_iff hi, h.not_empty_and_full hi, h.of_capacity_one hi⟩

/-! ## The registers after an element went in or came out -/

@[simp] theorem pushElement_inst (v : Element) (s : State) : (pushElement v s).inst = s.inst := rfl
@[simp] theorem pushElement_initialized (v : Element) (s : State) : (pushElement v s).initialized = s.initialized := rfl
@[simp] theorem pushElement_capacity (v : Element) (s : State) : (pushElement v s).capacity = s.capacity := rfl
@[simp] theorem pushElement_writeCursor (v : Element) (s : State) :
    (pushElement v s).writeCursor = nextCursor s s.writeCursor := rfl
@[simp] theorem pushElement_readCursor (v : Element) (s : State) : (pushElement v s).readCursor = s.readCursor := rfl
@[simp] theorem pushElement_count (v : Element) (s : State) : (pushElement v s).count = countUp s := rfl

@[simp] theorem popElement_inst (s : State) : (popElement s).inst = s.inst := rfl
@[simp] theorem popElement_initialized (s : State) : (popElement s).initialized = s.initialized := rfl
@[simp] theorem popElement_capacity (s : State) : (popElement s).capacity = s.capacity := rfl
@[simp] theorem popElement_writeCursor (s : State) : (popElement s).writeCursor = s.writeCursor := rfl
@[simp] theorem popElement_readCursor (s : State) : (popElement s).readCursor = nextCursor s s.readCursor := rfl
@[simp] theorem popElement_count (s : State) : (popElement s).count = countDown s := rfl

/-- A buffer with a free slot counts at most 65534 elements (R79). -/
theorem BufferInv.countUp_of_not_full {s : State} (h : BufferInv s) (hi : s.initialized = true) (hf : isFull s = false) :
    (countUp s).toNat = s.count.toNat + 1 := by
  have hlt := h.count_lt_of_not_full hi hf
  have hcap := s.capacity.isLt
  exact countUp_toNat (by omega)

theorem BufferInv.countDown_of_not_empty {s : State} (h : BufferInv s) (hi : s.initialized = true) (he : isEmpty s = false) :
    (countDown s).toNat + 1 = s.count.toNat := by
  have hpos := h.count_pos_of_not_empty hi he
  rw [countDown_toNat (by omega)]
  omega

/-! ## Every command keeps the register invariant -/

/-- The invariant speaks of the registers and the parameters alone. -/
theorem BufferInv.of_sameRegisters {s t : State} (h : BufferInv s) (hr : SameRegisters s t) (hc : t.inst = s.inst) :
    BufferInv t := by
  obtain ⟨hinit, hcap, hwc, hrc, hcount⟩ := hr
  simpa only [BufferInv, hinit, hcap, hwc, hrc, hcount, hc] using h

theorem respond_sameRegisters (p : Port) (st : Status) (d : Element) (s : State) :
    SameRegisters s (respond p st d s) := by constructor <;> simp

theorem noResponse_sameRegisters (p : Port) (s : State) : SameRegisters s (noResponse p s) := by
  constructor <;> simp

theorem noResponseX_sameRegisters (s : State) : SameRegisters s (noResponseX s) := by constructor <;> simp

theorem memWrite_sameRegisters (s : State) (i : Reg16) (v : Element) : SameRegisters s (memWrite s i v) := by
  constructor <;> simp

theorem setInputs_sameRegisters (s : State) (is : List CycleInput) : SameRegisters s (s.setInputs is) := by
  constructor <;> simp

theorem BufferInv.after_respond {s : State} (h : BufferInv s) (p : Port) (st : Status) (d : Element) :
    BufferInv (respond p st d s) := h.of_sameRegisters (respond_sameRegisters p st d s) (respond_inst p st d s)

theorem BufferInv.after_noResponse {s : State} (h : BufferInv s) (p : Port) : BufferInv (noResponse p s) :=
  h.of_sameRegisters (noResponse_sameRegisters p s) (noResponse_inst p s)

theorem BufferInv.after_noResponseX {s : State} (h : BufferInv s) : BufferInv (noResponseX s) :=
  h.of_sameRegisters (noResponseX_sameRegisters s) (noResponseX_inst s)

theorem BufferInv.after_memWrite {s : State} (h : BufferInv s) (i : Reg16) (v : Element) : BufferInv (memWrite s i v) :=
  h.of_sameRegisters (memWrite_sameRegisters s i v) (memWrite_inst s i v)

theorem BufferInv.after_setInputs {s : State} (h : BufferInv s) (is : List CycleInput) : BufferInv (s.setInputs is) :=
  h.of_sameRegisters (setInputs_sameRegisters s is) rfl

/-- The write cursor moves on by one as `count` grows by one, so their relation stays. -/
theorem BufferInv.after_pushElement {s : State} (h : BufferInv s) (hi : s.initialized = true) (hf : isFull s = false)
    (v : Element) : BufferInv (pushElement v s) := by
  obtain ⟨hpos, hdepth, hwc, hrc, -, hrel⟩ := h.1 hi
  have hlt := h.count_lt_of_not_full hi hf
  have hcount := h.countUp_of_not_full hi hf
  have hrel' : (nextCursor s s.writeCursor).toNat = (s.readCursor.toNat + (countUp s).toNat) % s.capacity.toNat := by
    rw [nextCursor_toNat hwc, hrel, hcount, Nat.mod_add_mod, Nat.add_assoc]
  exact ⟨fun _ => ⟨hpos, hdepth, nextCursor_lt hwc, hrc, hcount.trans_le hlt, hrel'⟩,
    fun hu => absurd (hi.symm.trans hu) (by decide)⟩

/-- The read cursor moves on by one as `count` shrinks by one, so their relation stays. -/
theorem BufferInv.after_popElement {s : State} (h : BufferInv s) (hi : s.initialized = true) (he : isEmpty s = false) :
    BufferInv (popElement s) := by
  obtain ⟨hpos, hdepth, hwc, hrc, hle, hrel⟩ := h.1 hi
  have hcount := h.countDown_of_not_empty hi he
  have hrel' : s.writeCursor.toNat =
      ((nextCursor s s.readCursor).toNat + (countDown s).toNat) % s.capacity.toNat := by
    rw [nextCursor_toNat hrc, Nat.mod_add_mod, hrel, ← hcount, Nat.add_assoc, Nat.add_comm 1]
  have hle' : (countDown s).toNat ≤ s.capacity.toNat := by omega
  exact ⟨fun _ => ⟨hpos, hdepth, hwc, nextCursor_lt hrc, hle', hrel'⟩,
    fun hu => absurd (hi.symm.trans hu) (by decide)⟩

theorem newBuffer_bufferInv (s : State) {cap : Reg16} (h0 : cap.toNat ≠ 0) (hd : cap.toNat ≤ s.inst.depth) :
    BufferInv (s.newBuffer true cap) := by
  have hpos : 0 < cap.toNat := Nat.pos_of_ne_zero h0
  simpa [BufferInv, hd, Nat.succ_le_iff] using hpos

theorem uninitialize_bufferInv (s : State) : BufferInv s.uninitialize := by simp [BufferInv]

theorem resetOf_bufferInv (c : Instance) : BufferInv (State.resetOf c) := by simp [BufferInv, State.resetOf]

/-- Every command keeps the register invariant. -/
theorem BufferInv.after_exec {i : Instr} {s t : State} (h : BufferInv s) (he : exec i s = .next t) : BufferInv t := by
  cases exec_ends he with
  | failed | answered => exact h.after_respond ..
  | pushed v hi hf => exact (h.after_pushElement hi hf v).after_respond ..
  | popped hi hempty => exact (h.after_popElement hi hempty).after_respond ..
  | stored => exact (h.after_memWrite ..).after_respond ..
  | created cap h0 hd => exact (newBuffer_bufferInv s h0 hd).after_respond ..
  | refused => exact (uninitialize_bufferInv s).after_respond ..

/-! ## From commands to steps and runs -/

/-- What the parts of an edge keep, a step keeps. A command of port X is asked about only where there is such a
port. -/
theorem step_preserves {P : State → Prop} (hinputs : ∀ s is, P s → P (s.setInputs is))
    (hreset : ∀ s, P s → P (resetEdge s))
    (hexec : ∀ i s t, P s → (i.port = .x → s.inst.xport = true) → exec i s = .next t → P t)
    (hnoF : ∀ s, P s → P (noResponse .f s)) (hnoX : ∀ s, P s → P (noResponseX s))
    {s t : State} (hs : P s) (h : step s = .next t) : P t := by
  have hs' : P (consumeInput s) := hinputs _ _ hs
  rcases cycle_cases h with ⟨-, rfl⟩ | ⟨-, u, hf, hx⟩
  · exact hreset _ hs'
  have hu : P u := by
    rcases edgeF_cases (currentInput s) (consumeInput s) with ⟨-, he⟩ | ⟨-, he⟩
    · exact hexec _ _ _ hs' (by simp [decodeF_port]) (he.symm.trans hf)
    · exact next_injective (he.symm.trans hf) ▸ hnoF _ hs'
  rcases edgeX_cases (currentInput s) u with ⟨ha, he⟩ | ⟨-, he⟩
  · have hport : u.inst.xport = true := by simp only [acceptedX, Bool.and_eq_true] at ha; tauto
    exact hexec _ _ _ hu (fun _ => hport) (he.symm.trans hx)
  · exact next_injective (he.symm.trans hx) ▸ hnoX _ hu

/-- What every step keeps, every run keeps. -/
theorem runCycles_preserves {P : State → Prop} (hstep : ∀ s t, P s → step s = .next t → P t) {n : Nat} {s t : State}
    (hs : P s) (h : runCycles n s = .next t) : P t := by
  induction n generalizing s with
  | zero => exact next_injective h ▸ hs
  | succ n ih =>
    rw [runCycles] at h
    cases hu : step s with
    | next u => rw [hu] at h; exact ih (hstep s u hs hu) h
    | fault e => cases e
    | refused e => rw [hu] at h; cases h

@[simp] theorem resetEdge_inst (s : State) : (resetEdge s).inst = s.inst := by simp [resetEdge]
@[simp] theorem resetEdge_capacity (s : State) : (resetEdge s).capacity = 0 := by simp [resetEdge]
@[simp] theorem resetEdge_count (s : State) : (resetEdge s).count = 0 := by simp [resetEdge]

theorem resetEdge_bufferInv (s : State) : BufferInv (resetEdge s) :=
  ((uninitialize_bufferInv s).after_noResponse .f).after_noResponseX

theorem BufferInv.after_step {s t : State} (h : BufferInv s) (hstep : step s = .next t) : BufferInv t :=
  step_preserves (fun _ is hs => hs.after_setInputs is) (fun s _ => resetEdge_bufferInv s)
    (fun _ _ _ hs _ he => hs.after_exec he) (fun _ hs => hs.after_noResponse .f) (fun _ hs => hs.after_noResponseX) h hstep

/-- No step changes the parameters (R34). -/
theorem step_inst {s t : State} (h : step s = .next t) : t.inst = s.inst :=
  step_preserves (P := fun u => u.inst = s.inst) (fun _ _ hu => hu) (fun _ hu => by simp [hu])
    (fun _ _ _ hu _ he => (exec_keeps he).1.trans hu) (fun _ hu => by simp [hu]) (fun _ hu => by simp [hu]) rfl h

theorem BufferInv.after_runCycles {n : Nat} {s t : State} (h : BufferInv s) (hrun : runCycles n s = .next t) :
    BufferInv t :=
  runCycles_preserves (fun _ _ hs hstep => hs.after_step hstep) h hrun

theorem runCycles_inst {n : Nat} {s t : State} (hrun : runCycles n s = .next t) : t.inst = s.inst :=
  runCycles_preserves (P := fun u => u.inst = s.inst) (fun _ _ hu hstep => (step_inst hstep).trans hu) rfl hrun

/-- Settles O14: the register invariant holds at reset and along every run, and the run keeps the parameters. -/
theorem reachableRegistersAreInRange : Obligations.ReachableRegistersAreInRange := by
  intro c inputs n t _ hrun
  obtain ⟨hbuffer, hunit⟩ := ((resetOf_bufferInv c).after_setInputs inputs).after_runCycles hrun
  refine ⟨fun hi => ?_, hunit⟩
  obtain ⟨hpos, hdepth, hwc, hrc, hcount, hrel⟩ := hbuffer hi
  rw [runCycles_inst hrun] at hdepth
  exact ⟨hwc, hrc, hrel, hpos, hdepth, hcount⟩

/-! ## What changes `count` (R21) -/

theorem create_count {i : Instr} {s t : State} (hc : isCreate i = true) (h : exec i s = .next t) : t.count = 0 := by
  cases exec_ends h with
  | failed _ _ _ hnc => exact absurd (hc.symm.trans hnc) (by decide)
  | answered _ _ hnc => exact absurd (hc.symm.trans hnc) (by decide)
  | pushed | popped => cases hc
  | stored idx v hi hr hw => rcases hw with rfl | rfl <;> cases hc
  | created | refused => simp

theorem enqueue_count_of_ok {v : Element} {s t : State} (hs : BufferInv s) (h : exec (.enqueue v) s = .next t)
    (hok : t.fRsp.status = Status.code .ok) : t.count.toNat = s.count.toNat + 1 := by
  rcases exec_enqueue.mp h with ⟨-, rfl⟩ | ⟨-, -, rfl⟩ | ⟨hi, hf, rfl⟩
  · exact absurd hok (by decide : Status.code .notInitialized ≠ Status.code .ok)
  · exact absurd hok (by decide : Status.code .full ≠ Status.code .ok)
  · simpa using hs.countUp_of_not_full hi hf

theorem dequeue_count_of_ok {s t : State} (hs : BufferInv s) (h : exec .dequeue s = .next t)
    (hok : t.fRsp.status = Status.code .ok) : t.count.toNat + 1 = s.count.toNat := by
  rcases exec_dequeue.mp h with ⟨-, rfl⟩ | ⟨-, -, rfl⟩ | ⟨hi, he, rfl⟩
  · exact absurd hok (by decide : Status.code .notInitialized ≠ Status.code .ok)
  · exact absurd hok (by decide : Status.code .empty ≠ Status.code .ok)
  · simpa using hs.countDown_of_not_empty hi he

/-- No other outcome changes `count`. -/
theorem count_unchanged {i : Instr} {s t : State} (h : exec i s = .next t) (hc : isCreate i = false)
    (hpush : ¬((∃ v : Element, i = .enqueue v) ∧ t.fRsp.status = Status.code .ok))
    (hpop : ¬(i = .dequeue ∧ t.fRsp.status = Status.code .ok)) : t.count = s.count := by
  cases exec_ends h with
  | failed | answered | stored => simp
  | pushed v => exact absurd ⟨⟨v, rfl⟩, rfl⟩ hpush
  | popped => exact absurd ⟨rfl, rfl⟩ hpop
  | created | refused => cases hc

/-- Settles O16: a clause for each outcome, and the bound from the invariant that every command keeps. -/
theorem countLaw : Obligations.CountLaw := by
  refine ⟨fun i s t hs h => ⟨(hs.after_exec h).count_le_capacity, fun hc => create_count hc h, ?_, ?_, count_unchanged h⟩,
    fun s => ⟨resetEdge_count s, resetEdge_capacity s⟩⟩
  · rintro v rfl hok
    exact enqueue_count_of_ok hs h hok
  · rintro rfl hok
    exact dequeue_count_of_ok hs h hok

/-! ## The state after reset (R32) -/

/-- The gated pins `empty` and `full` are 0 while nothing is initialized (R99). -/
theorem pins_of_uninitialized {s : State} (h : s.initialized = false) :
    initializedPin s = false ∧ emptyPin s = false ∧ fullPin s = false := by
  simp [initializedPin, emptyPin, fullPin, h]

/-- Settles O10: the registers are R32's by definition, and the pins are gated with `initialized`. -/
theorem resetState : Obligations.ResetState := fun _ =>
  ⟨rfl, rfl, rfl, rfl, rfl, fun _ => rfl, rfl, rfl, pins_of_uninitialized rfl⟩

end Sys2Proof.Machine
end

section
/-!
SUPPORT and proofs for spec/30_encoding.md. The fields a command uses, and that the others make no difference (R62); the
response word (R63); the response data by command and status (R64).
-/
namespace Sys2Proof

/-! ## The fields a command uses (R60, R62) -/

theorem usesArg_f_iff (op : Opcode) : usesArg .f op = true ↔ op.toNat = 1 ∨ op.toNat = 4 ∨ op.toNat = 5 := by
  simp [usesArg, BitVec.toNat_eq, or_assoc]

theorem usesArg_x_iff (op : Opcode) : usesArg .x op = true ↔ op.toNat = 4 ∨ op.toNat = 5 := by
  simp [usesArg, BitVec.toNat_eq]

theorem usesWdata_f_iff (op : Opcode) : usesWdata .f op = true ↔ op.toNat = 2 ∨ op.toNat = 4 := by
  simp [usesWdata, BitVec.toNat_eq]

theorem usesWdata_x_iff (op : Opcode) : usesWdata .x op = true ↔ op.toNat = 4 := by
  simp [usesWdata, BitVec.toNat_eq]

/-- The fields with 0 for those that the opcode ignores on the port, and `wdata` cut to its `dw` bits. -/
def usedFields (p : Port) (dw : Nat) (c : Command) : Command :=
  { op := c.op
    arg := if usesArg p c.op = true then c.arg else 0
    wdata := if usesWdata p c.op = true then c.wdata % 2 ^ dw else 0 }

/-- The decoder looks at the used fields alone (R62). -/
theorem decodeCommand_usedFields (p : Port) (dw : Nat) (c : Command) :
    decodeCommand p dw (usedFields p dw c) = decodeCommand p dw c := by
  cases p with
  | f =>
    simp only [decodeCommand, decodeF, usedFields, usesArg_f_iff, usesWdata_f_iff]
    split <;> simp [*]
  | x =>
    simp only [decodeCommand, decodeX, usedFields, usesArg_x_iff, usesWdata_x_iff]
    split <;> simp [*]

theorem usedFields_congr {p : Port} {dw : Nat} {c c' : Command} (hop : c.op = c'.op)
    (harg : usesArg p c.op = true → c.arg = c'.arg)
    (hwdata : usesWdata p c.op = true → c.wdata % 2 ^ dw = c'.wdata % 2 ^ dw) :
    usedFields p dw c = usedFields p dw c' := by
  simp only [usedFields, ← hop, Command.mk.injEq, true_and]
  exact ⟨ite_congr rfl harg fun _ => rfl, ite_congr rfl hwdata fun _ => rfl⟩

/-- Commands that agree on the used fields decode alike. -/
theorem decodeCommand_congr {p : Port} {dw : Nat} {c c' : Command} (hop : c.op = c'.op)
    (harg : usesArg p c.op = true → c.arg = c'.arg)
    (hwdata : usesWdata p c.op = true → c.wdata % 2 ^ dw = c'.wdata % 2 ^ dw) :
    decodeCommand p dw c = decodeCommand p dw c' := by
  rw [← decodeCommand_usedFields p dw c, usedFields_congr hop harg hwdata, decodeCommand_usedFields]

end Sys2Proof

namespace Sys2Proof.Machine

/-! ## A port that presents nothing (R62, R106) -/

theorem edgeF_of_not_valid {inp : CycleInput} (h : inp.f.valid = false) (s : State) :
    edgeF inp s = .next (noResponse .f s) := by simp [edgeF, acceptedF, h]

theorem edgeX_of_not_valid {inp : CycleInput} (h : inp.x.valid = false) (s : State) :
    edgeX inp s = .next (noResponseX s) := by simp [edgeX, acceptedX, h]

/-- Without a command on port F there is no conflict, whatever its opcode pins carry. -/
theorem xReady_of_f_not_valid {inp : CycleInput} (h : inp.f.valid = false) : xReady inp = true := by
  simp [xReady, conflict, h]

/-- The cycle depends on the pins through `rst` and the two ports' parts of the edge. -/
theorem cycle_congr {inp inp' : CycleInput} {s : State} (hrst : inp.rst = inp'.rst) (hf : edgeF inp s = edgeF inp' s)
    (hx : ∀ u : State, edgeX inp u = edgeX inp' u) : cycle inp s = cycle inp' s := by
  rw [cycle, cycle, hrst, hf, funext hx]

theorem cycle_ignores_f_fields {inp : CycleInput} (cf : Command) (s : State) (h : inp.f.valid = false) :
    cycle inp s = cycle { inp with f := { valid := false, cmd := cf } } s := by
  refine cycle_congr rfl ?_ fun u => ?_
  · rw [edgeF_of_not_valid h, edgeF_of_not_valid rfl]
  · rw [edgeX, edgeX, acceptedX, acceptedX, xReady_of_f_not_valid h, xReady_of_f_not_valid rfl]

theorem cycle_ignores_x_fields {inp : CycleInput} (cx : Command) (s : State) (h : inp.x.valid = false) :
    cycle inp s = cycle { inp with x := { valid := false, cmd := cx } } s :=
  cycle_congr rfl rfl fun u => by rw [edgeX_of_not_valid h, edgeX_of_not_valid rfl]

/-- Settles O4: the decoder sees the used fields alone, and an edge sees no field of a port that presents nothing. -/
theorem ignoredFieldsDoNotMatter : Obligations.IgnoredFieldsDoNotMatter :=
  ⟨fun _ _ _ _ => decodeCommand_congr, fun _ => cycle_ignores_f_fields, fun _ => cycle_ignores_x_fields⟩

/-! ## The response word (R63) -/

/-- Settles O48: the data fits below the three bits of the status. -/
theorem responseWordFields : Obligations.ResponseWordFields := by
  intro dw r hdata
  have hstatus : r.status.toNat < 2 ^ 3 := r.status.isLt
  have hword : responseWord dw r = 2 ^ dw * r.status.toNat + r.data := by rw [responseWord, Nat.mul_comm]
  refine ⟨?_, ?_, ?_⟩
  · rw [hword, Nat.add_comm dw, Nat.pow_add]
    exact Nat.mul_add_lt_mul_of_lt_of_lt hstatus hdata
  · rw [hword, Nat.mul_add_div (Nat.two_pow_pos dw), Nat.div_eq_of_lt hdata, Nat.add_zero]
  · rw [hword, Nat.mul_add_mod, Nat.mod_eq_of_lt hdata]

/-! ## Response data (R64) -/

theorem flagData_eq_ite {b : Bool} {P : Prop} [Decidable P] (h : b = true ↔ P) : flagData b = if P then 1 else 0 := by
  by_cases hP : P
  · rw [if_pos hP, h.mpr hP]; rfl
  · rw [if_neg hP, Bool.eq_false_iff.mpr (mt h.mp hP)]; rfl

theorem promisedData_dequeue {s : State} (hok : expectedStatus .dequeue s = .ok) :
    promisedData .dequeue s = s.storage.read (dequeueIndex s).toNat := if_pos hok

theorem promisedData_readAt {s : State} {idx : Reg16} (hok : expectedStatus (.readAt idx) s = .ok) :
    promisedData (.readAt idx) s = s.storage.read (absoluteIndex idx).toNat := if_pos hok

theorem promisedData_isEmpty {s : State} (hok : expectedStatus .isEmpty s = .ok) :
    promisedData .isEmpty s = some (flagData (isEmpty s)) := by
  rw [flagData_eq_ite (isEmpty_true_iff s)]; exact if_pos hok

theorem promisedData_isFull {s : State} (hok : expectedStatus .isFull s = .ok) :
    promisedData .isFull s = some (flagData (isFull s)) := by
  rw [flagData_eq_ite (isFull_true_iff s)]; exact if_pos hok

/-- A command that fails has no data promised. -/
theorem carriesPromise_of_not_ok {i : Instr} {s : State} (h : expectedStatus i s ≠ .ok) (r : Response) :
    CarriesPromise (promisedData i s) r := by
  have hnone : promisedData i s = none := if_neg h
  simp [CarriesPromise, hnone]

theorem carriesPromise_some {d : Element} {r : Response} (h : r.data = d) : CarriesPromise (some d) r :=
  fun _ hd => h.trans (Option.some.inj hd)

/-- A response with the value read from a slot carries what the slot promises (R36). -/
theorem carriesPromise_memRead {s : State} {idx : Reg16} {r : Response} (h : r.data = memRead s idx) :
    CarriesPromise (s.storage.read idx.toNat) r := fun _ hd => h.trans (memRead_of_some hd)

/-! What it takes to succeed. -/

theorem expectedStatus_dequeue_ok {s : State} (hok : expectedStatus .dequeue s = .ok) :
    s.initialized = true ∧ isEmpty s = false := by
  rw [Bool.eq_false_iff, Ne, isEmpty_true_iff]
  cases hi : s.initialized with
  | false => simp [expectedStatus, hi] at hok
  | true => simpa [expectedStatus, hi] using hok

theorem expectedStatus_readAt_ok {s : State} {idx : Reg16} (hok : expectedStatus (.readAt idx) s = .ok) :
    s.initialized = true ∧ indexInRange s idx = true := by
  rw [indexInRange_iff]
  cases hi : s.initialized with
  | false => simp [expectedStatus, hi] at hok
  | true => simpa [expectedStatus, hi] using hok

theorem expectedStatus_isEmpty_ok {s : State} (hok : expectedStatus .isEmpty s = .ok) : s.initialized = true := by
  simpa [expectedStatus] using hok

theorem expectedStatus_isFull_ok {s : State} (hok : expectedStatus .isFull s = .ok) : s.initialized = true :=
  expectedStatus_isEmpty_ok hok

/-! The data of each command that has any promised. -/

theorem exec_unique {i : Instr} {s t u : State} (ht : exec i s = .next t) (hu : exec i s = .next u) : t = u :=
  next_injective (ht.symm.trans hu)

/-- READ_AT carries its promise on either port; the statement names port F's command, whose promise is port X's too. -/
theorem readAtOn_carriesPromise (p : Port) {s : State} {idx : Reg16} (hok : expectedStatus (.readAt idx) s = .ok) :
    CarriesPromise (promisedData (.readAt idx) s) ((readAtOn p idx s).rsp p) := by
  obtain ⟨hi, hr⟩ := expectedStatus_readAt_ok hok
  rw [promisedData_readAt hok, readAtOn_eq.mpr (.inr (.inr ⟨hi, hr, rfl⟩)), respond_rsp]
  exact carriesPromise_memRead rfl

/-- Every response carries the data promised for its command (R64). -/
theorem exec_carriesPromise {i : Instr} {s t : State} (h : exec i s = .next t) :
    CarriesPromise (promisedData i s) (t.rsp i.port) := by
  by_cases hok : expectedStatus i s = .ok
  case neg => exact carriesPromise_of_not_ok hok _
  cases i with
  | dequeue =>
    obtain ⟨hi, he⟩ := expectedStatus_dequeue_ok hok
    rw [promisedData_dequeue hok, exec_unique h (exec_dequeue.mpr (.inr (.inr ⟨hi, he, rfl⟩)))]
    exact carriesPromise_memRead rfl
  | readAt idx => exact exec_readAt.mp h ▸ readAtOn_carriesPromise .f hok
  | xReadAt idx => exact exec_xReadAt.mp h ▸ readAtOn_carriesPromise .x hok
  | isEmpty =>
    rw [promisedData_isEmpty hok, exec_unique h (exec_isEmpty.mpr (.inr ⟨expectedStatus_isEmpty_ok hok, rfl⟩))]
    exact carriesPromise_some rfl
  | isFull =>
    rw [promisedData_isFull hok, exec_unique h (exec_isFull.mpr (.inr ⟨expectedStatus_isFull_ok hok, rfl⟩))]
    exact carriesPromise_some rfl
  | nop | create | enqueue | writeAt | illegal | xNop | xWriteAt | xIllegalCreate | xIllegalEnqueue | xIllegalDequeue
  | xIllegalIsEmpty | xIllegalIsFull | xIllegal => simp [promisedData, CarriesPromise]

/-- Under the invariants a DEQUEUE that succeeds reads the oldest occupied slot, which has been written. -/
theorem promisedData_dequeue_isSome {s : State} (hb : BufferInv s) (ho : OccupiedInv s)
    (hok : expectedStatus .dequeue s = .ok) : (promisedData .dequeue s).isSome = true := by
  obtain ⟨hi, he⟩ := expectedStatus_dequeue_ok hok
  obtain ⟨-, -, -, hrc, -⟩ := hb.1 hi
  have hslot := ho 0 (hb.count_pos_of_not_empty hi he)
  rw [Nat.add_zero, Nat.mod_eq_of_lt hrc] at hslot
  rw [promisedData_dequeue hok]
  exact hslot

/-- Settles O54: the promise is carried by every command, and the invariants give DEQUEUE one. -/
theorem responseDataWherePromised : Obligations.ResponseDataWherePromised :=
  ⟨fun _ _ _ => exec_carriesPromise, fun _ => promisedData_dequeue_isSome⟩

end Sys2Proof.Machine
end

section
/-!
SUPPORT and proofs for spec/40_create.md. CREATE on either outcome (R72, R73); NOP (R75); the reserved opcodes and those that are
illegal on port X (R76, R103).
-/
namespace Sys2Proof

/-- A reserved opcode uses neither operand field (R61, R62). -/
theorem usesNoField_of_reserved {op : Opcode} (h : 8 ≤ op.toNat) (p : Port) :
    usesArg p op = false ∧ usesWdata p op = false := by
  cases p with
  | f =>
    simp only [Bool.eq_false_iff, Ne, usesArg_f_iff, usesWdata_f_iff]
    omega
  | x =>
    simp only [Bool.eq_false_iff, Ne, usesArg_x_iff, usesWdata_x_iff]
    omega

theorem decodeCommand_reserved {op : Opcode} (h : 8 ≤ op.toNat) (p : Port) (dw : Nat) (a : Reg16) (d : Element) :
    decodeCommand p dw ⟨op, a, d⟩ = decodeCommand p dw ⟨op, 0, 0⟩ := by
  obtain ⟨harg, hwdata⟩ := usesNoField_of_reserved h p
  exact decodeCommand_congr rfl (by simp [harg]) (by simp [hwdata])

end Sys2Proof

namespace Sys2Proof.Machine

/-! ## CREATE (R72, R73) -/

/-- The pins of a buffer without elements: it is empty, and not full because it has a slot (R99). -/
theorem pins_of_emptyBuffer {s : State} (hi : s.initialized = true) (hcap : s.capacity.toNat ≠ 0)
    (hcursors : s.writeCursor = s.readCursor) (hcount : s.count = 0) :
    initializedPin s = true ∧ emptyPin s = true ∧ fullPin s = false := by
  have hne : 0#16 ≠ s.capacity := fun h => hcap (h ▸ rfl)
  simp [initializedPin, emptyPin, fullPin, isEmpty, isFull, hi, hcursors, hcount, hne]

theorem exec_create_fits {cap : Reg16} {s : State} (h0 : cap.toNat ≠ 0) (hd : cap.toNat ≤ s.inst.depth) :
    exec (.create cap) s = .next (respondNoData .f .ok (s.newBuffer true cap)) :=
  exec_create.mpr (.inl ⟨(capacityFits_iff s cap).mpr ⟨h0, hd⟩, rfl⟩)

theorem exec_create_refused {cap : Reg16} {s : State} (h : cap.toNat = 0 ∨ s.inst.depth < cap.toNat) :
    exec (.create cap) s = .next (fail .f .allocationFailed s.uninitialize) := by
  refine exec_create.mpr (.inr ⟨?_, rfl⟩)
  rw [Bool.eq_false_iff, Ne, capacityFits_iff]
  omega

/-- Settles O22: on either outcome the registers are those of the buffer CREATE installs, which answering leaves alone. -/
theorem createMakesOrRefusesABuffer : Obligations.CreateMakesOrRefusesABuffer :=
  fun _ _ => ⟨fun _ _ => rfl,
    fun h0 hd => ⟨_, exec_create_fits h0 hd, respondNoData_answers rfl rfl rfl, rfl, rfl, rfl, rfl, rfl, fun _ => rfl,
      pins_of_emptyBuffer rfl h0 rfl rfl⟩,
    fun h => ⟨_, exec_create_refused h, respondNoData_answers rfl rfl rfl, rfl, rfl, rfl, rfl, rfl, fun _ => rfl,
      pins_of_uninitialized rfl⟩⟩

/-! ## NOP (R75) -/

theorem nopOn_onlyAnswers (p : Port) (s : State) :
    Answers p .ok s (nopOn p s) ∧ SameRegisters s (nopOn p s) ∧ SameStorage s (nopOn p s) :=
  ⟨respondNoData_answers rfl rfl rfl, respond_sameRegisters .., fun _ => by simp [nopOn]⟩

/-- Settles O23: NOP on a port is one operation for both ports. -/
theorem nopOnlyAnswersOk : Obligations.NopOnlyAnswersOk := by
  refine ⟨fun _ _ _ => ⟨rfl, rfl⟩, ?_⟩
  rintro s i (rfl | rfl)
  · exact ⟨_, exec_nop.mpr rfl, nopOn_onlyAnswers .f s⟩
  · exact ⟨_, exec_xNop.mpr rfl, nopOn_onlyAnswers .x s⟩

/-! ## Illegal commands (R76, R103) -/

/-- A command other than CREATE that R116 gives an error for is answered with that error and changes nothing (R120). -/
theorem exec_failsWith {i : Instr} {s : State} {st : Status} (hst : expectedStatus i s = st) (herr : st ≠ .ok)
    (hnc : isCreate i = false) : ∃ t, exec i s = .next t ∧ FailsWith i.port st s t := by
  subst hst
  obtain ⟨t, ht⟩ := exec_answers i s
  refine ⟨t, ht, ?_⟩
  cases exec_ends ht with
  | failed st _ hst => rw [hst]; exact fail_failsWith i.port st s
  | answered _ hok => exact absurd hok herr
  | pushed _ _ _ hok => exact absurd hok herr
  | popped _ _ hok => exact absurd hok herr
  | stored _ _ _ _ _ hok => exact absurd hok herr
  | created | refused => cases hnc

/-- Settles O24: a reserved opcode decodes as it does with its fields 0, and each of these commands has the one cause of
`IllegalCommand` in every state. -/
theorem illegalCommandsOnlyAnswer : Obligations.IllegalCommandsOnlyAnswer := by
  refine ⟨fun dw op a d h => ?_, fun s i hi => ?_⟩
  · obtain ⟨hf, hx⟩ := decode_reserved (dw := dw) (op := op) (decide_eq_true h)
    exact ⟨(decodeCommand_reserved h .f dw a d).trans hf, (decodeCommand_reserved h .x dw a d).trans hx⟩
  · have hcause : expectedStatus i s = .illegalCommand ∧ isCreate i = false := by
      rcases hi with ⟨op, rfl | rfl⟩ | rfl | rfl | rfl | rfl | rfl <;> exact ⟨rfl, rfl⟩
    obtain ⟨hst, hnc⟩ := hcause
    exact exec_failsWith hst (by decide) hnc

end Sys2Proof.Machine
end

section
/-!
SUPPORT and proofs for spec/41_fifo.md. The pointer increment (R77); ENQUEUE and DEQUEUE by their outcomes (R78, R80) and on
the logical queue (R88); the laws over command sequences: cursors (R86), FIFO order (R84), fill and drain (R85).
-/
namespace Sys2Proof.Machine

/-! ## The pointer increment (R77) -/

/-- The comparison form of `IncMod`: the remainder wraps at `n` alone. -/
theorem incMod_eq_ite {c n : Reg16} (h : c.toNat < n.toNat) :
    incMod c n = if c.toNat + 1 = n.toNat then 0 else c + 1 := by
  have hn := n.isLt
  apply BitVec.eq_of_toNat_eq
  rw [incMod_toNat h]
  split
  case isTrue heq => rw [heq, Nat.mod_self]; rfl
  case isFalse hne =>
    have hsum : (c + 1).toNat = c.toNat + 1 := BitVec.toNat_add_of_lt (by simp; omega)
    rw [hsum, Nat.mod_eq_of_lt (by omega)]

theorem nextCursor_eq_incMod {s : State} {c : Reg16} (h : c.toNat < s.capacity.toNat) :
    nextCursor s c = incMod c s.capacity := if_pos h

/-- Settles O25: the invariant keeps both cursors where `IncMod` is defined. -/
theorem incModTwoForms : Obligations.IncModTwoForms := by
  refine ⟨fun c n h => ?_, fun s hs hi => ?_⟩
  · have hlt : (incMod c n).toNat < n.toNat := incMod_toNat h ▸ Nat.mod_lt _ (Nat.zero_lt_of_lt h)
    have hn := n.isLt
    exact ⟨incMod_toNat h, incMod_eq_ite h, hlt, by omega⟩
  · obtain ⟨hpos, -, hwc, hrc, -⟩ := hs.1 hi
    exact ⟨hpos, nextCursor_eq_incMod hwc, nextCursor_eq_incMod hrc⟩

/-! ## ENQUEUE and DEQUEUE by their outcomes (R78, R80) -/

theorem isEmpty_false_iff (s : State) : isEmpty s = false ↔ ¬(s.count = 0 ∧ s.writeCursor = s.readCursor) := by
  rw [Bool.eq_false_iff, Ne, isEmpty_true_iff]

theorem isFull_false_iff (s : State) : isFull s = false ↔ ¬(s.count = s.capacity ∧ s.writeCursor = s.readCursor) := by
  rw [Bool.eq_false_iff, Ne, isFull_true_iff]

@[simp] theorem pushElement_storage (v : Element) (s : State) :
    (pushElement v s).storage = s.storage.write (enqueueIndex s).toNat v := rfl
@[simp] theorem popElement_storage (s : State) : (popElement s).storage = s.storage := rfl

/-- What ENQUEUE does to a buffer that is not full. -/
def enqueueOk (v : Element) (s : State) : State := respondNoData .f .ok (pushElement v s)

/-- What DEQUEUE does to a buffer that is not empty. -/
def dequeueOk (s : State) : State := respond .f .ok (memRead s (dequeueIndex s)) (popElement s)

theorem exec_enqueue_ok {s : State} (hi : s.initialized = true) (hf : isFull s = false) (v : Element) :
    exec (.enqueue v) s = .next (enqueueOk v s) := exec_enqueue.mpr (.inr (.inr ⟨hi, hf, rfl⟩))

theorem exec_enqueue_full {s : State} (hi : s.initialized = true) (hf : isFull s = true) (v : Element) :
    exec (.enqueue v) s = .next (fail .f .full s) := exec_enqueue.mpr (.inr (.inl ⟨hi, hf, rfl⟩))

theorem exec_dequeue_ok {s : State} (hi : s.initialized = true) (he : isEmpty s = false) :
    exec .dequeue s = .next (dequeueOk s) := exec_dequeue.mpr (.inr (.inr ⟨hi, he, rfl⟩))

theorem exec_dequeue_empty {s : State} (hi : s.initialized = true) (he : isEmpty s = true) :
    exec .dequeue s = .next (fail .f .empty s) := exec_dequeue.mpr (.inr (.inl ⟨hi, he, rfl⟩))

theorem enqueueOk_answers (v : Element) (s : State) : Answers .f .ok s (enqueueOk v s) :=
  respondNoData_answers rfl rfl rfl

theorem dequeueOk_answers (s : State) : Answers .f .ok s (dequeueOk s) := respond_answers rfl rfl rfl

theorem BufferInv.after_enqueueOk {s : State} (h : BufferInv s) (hi : s.initialized = true) (hf : isFull s = false)
    (v : Element) : BufferInv (enqueueOk v s) := h.after_exec (exec_enqueue_ok hi hf v)

theorem BufferInv.after_dequeueOk {s : State} (h : BufferInv s) (hi : s.initialized = true) (he : isEmpty s = false) :
    BufferInv (dequeueOk s) := h.after_exec (exec_dequeue_ok hi he)

theorem BufferInv.emptyPin_iff {s : State} (h : BufferInv s) (hi : s.initialized = true) :
    emptyPin s = true ↔ s.count = 0 := by rw [emptyPin, hi, Bool.true_and, h.isEmpty_iff hi]

theorem BufferInv.fullPin_iff {s : State} (h : BufferInv s) (hi : s.initialized = true) :
    fullPin s = true ↔ s.count = s.capacity := by rw [fullPin, hi, Bool.true_and, h.isFull_iff hi]

/-- The pins after an ENQUEUE that answered `OK`: `count` is at least 1. -/
theorem pins_of_enqueueOk {s : State} (h : BufferInv s) (hi : s.initialized = true) (hf : isFull s = false)
    (v : Element) :
    emptyPin (enqueueOk v s) = false ∧ (fullPin (enqueueOk v s) = true ↔ (enqueueOk v s).count = s.capacity) := by
  have hinv := h.after_enqueueOk hi hf v
  have hcount : (enqueueOk v s).count.toNat = s.count.toNat + 1 := h.countUp_of_not_full hi hf
  refine ⟨Bool.eq_false_iff.mpr fun he => ?_, hinv.fullPin_iff hi⟩
  rw [(hinv.emptyPin_iff hi).mp he] at hcount
  exact Nat.succ_ne_zero _ hcount.symm

/-- The pins after a DEQUEUE that answered `OK`: `count` is below `capacity`. -/
theorem pins_of_dequeueOk {s : State} (h : BufferInv s) (hi : s.initialized = true) (he : isEmpty s = false) :
    fullPin (dequeueOk s) = false ∧ (emptyPin (dequeueOk s) = true ↔ (dequeueOk s).count = 0) := by
  have hinv := h.after_dequeueOk hi he
  have hcount : (dequeueOk s).count.toNat + 1 = s.count.toNat := h.countDown_of_not_empty hi he
  have hcap : (dequeueOk s).capacity = s.capacity := rfl
  refine ⟨Bool.eq_false_iff.mpr fun hfull => ?_, hinv.emptyPin_iff hi⟩
  have hle := h.count_le_capacity
  rw [(hinv.fullPin_iff hi).mp hfull, hcap] at hcount
  omega

/-- Settles O26: an outcome for each cause of R116, and for success the fields of the pushed state. -/
theorem enqueueAppendsOrFails : Obligations.EnqueueAppendsOrFails := by
  refine ⟨fun _ _ _ => rfl, fun s v => ⟨fun hi => ?_, fun hi hcount hcursors => ?_, fun hi hnot hs => ?_⟩⟩
  · exact exec_failsWith (i := .enqueue v) (by simp [expectedStatus, hi]) (by decide) rfl
  · exact exec_failsWith (i := .enqueue v) (by simp [expectedStatus, hi, hcount, hcursors]) (by decide) rfl
  have hf : isFull s = false := (isFull_false_iff s).mpr hnot
  obtain ⟨-, -, hwc, -⟩ := hs.1 hi
  exact ⟨enqueueOk v s, exec_enqueue_ok hi hf v, enqueueOk_answers v s, Memory.read_write_same .., fun _ =>
    Memory.read_write_other _ v, nextCursor_toNat hwc, hs.countUp_of_not_full hi hf, rfl, rfl, hi,
    pins_of_enqueueOk hs hi hf v⟩

/-- Settles O27: an outcome for each cause of R116, and for success the fields of the popped state. -/
theorem dequeueRemovesOrFails : Obligations.DequeueRemovesOrFails := by
  refine ⟨fun _ _ _ => rfl, fun s => ⟨fun hi => ?_, fun hi hcount hcursors => ?_, fun hi hnot hs => ?_⟩⟩
  · exact exec_failsWith (i := .dequeue) (by simp [expectedStatus, hi]) (by decide) rfl
  · exact exec_failsWith (i := .dequeue) (by simp [expectedStatus, hi, hcount, hcursors]) (by decide) rfl
  have he : isEmpty s = false := (isEmpty_false_iff s).mpr hnot
  obtain ⟨-, -, -, hrc, -⟩ := hs.1 hi
  exact ⟨dequeueOk s, exec_dequeue_ok hi he, dequeueOk_answers s, fun _ => memRead_of_some, nextCursor_toNat hrc,
    hs.countDown_of_not_empty hi he, rfl, rfl, hi, fun _ => rfl, pins_of_dequeueOk hs hi he⟩

/-! ## The logical queue (R26) -/

@[simp] theorem queue_length (s : State) : (queue s).length = s.count.toNat := by simp [queue]

/-- Answering leaves the queue alone. -/
@[simp] theorem queue_respond (p : Port) (st : Status) (d : Element) (s : State) :
    queue (respond p st d s) = queue s := by
  simp [queue]

/-- A new element is stored right behind the occupied slots, so none of them is overwritten. -/
theorem queue_pushElement {s : State} (h : BufferInv s) (hi : s.initialized = true) (hf : isFull s = false)
    (v : Element) : queue (pushElement v s) = queue s ++ [some v] := by
  obtain ⟨-, -, -, -, -, hrel⟩ := h.1 hi
  have hlt := h.count_lt_of_not_full hi hf
  have hkept : ∀ k ∈ List.range s.count.toNat,
      (s.storage.write s.writeCursor.toNat v).read ((s.readCursor.toNat + k) % s.capacity.toNat) =
        s.storage.read ((s.readCursor.toNat + k) % s.capacity.toNat) := fun k hk => by
    have hk : k < s.count.toNat := List.mem_range.mp hk
    refine Memory.read_write_other _ v fun heq => ?_
    exact absurd (offset_ne (hk.trans hlt) hlt (heq.trans hrel)) hk.ne
  simp only [queue, pushElement_count, pushElement_readCursor, pushElement_capacity, pushElement_storage, enqueueIndex,
    h.countUp_of_not_full hi hf, List.range_succ, List.map_append, List.map_congr_left hkept, List.map_cons,
    List.map_nil, ← hrel, Memory.read_write_same]

/-- The oldest element is in slot `readCursor`; the others are one place nearer to the advanced cursor. -/
theorem queue_popElement {s : State} (h : BufferInv s) (hi : s.initialized = true) (he : isEmpty s = false) :
    queue s = s.storage.read (dequeueIndex s).toNat :: queue (popElement s) := by
  obtain ⟨-, -, -, hrc, -, -⟩ := h.1 hi
  simp only [queue, popElement_count, popElement_readCursor, popElement_capacity, popElement_storage, dequeueIndex,
    ← h.countDown_of_not_empty hi he, List.range_succ_eq_map, List.map_cons, List.map_map, Nat.add_zero,
    Nat.mod_eq_of_lt hrc, nextCursor_toNat hrc, Nat.mod_add_mod]
  congr 1
  exact List.map_congr_left fun k _ => by rw [Function.comp_apply, Nat.succ_eq_one_add, Nat.add_assoc]

/-- Where every occupied slot has been written, the queue is a list of elements. -/
theorem OccupiedInv.exists_queue_eq {s : State} (h : OccupiedInv s) : ∃ q : List Element, queue s = q.map some := by
  have hmem : queue s ∈ Set.range (List.map some) := by
    rw [Set.range_list_map]
    intro o ho
    obtain ⟨k, hk, rfl⟩ := List.mem_map.mp ho
    obtain ⟨v, hv⟩ := Option.isSome_iff_exists.mp (h k (List.mem_range.mp hk))
    exact ⟨v, hv.symm⟩
  obtain ⟨q, hq⟩ := hmem
  exact ⟨q, hq.symm⟩

/-! ## A buffer of `cap` slots that holds the elements `q` -/

/-- `s` is an initialized buffer of `cap` slots that holds the elements `q`, oldest first. -/
structure Holds (s : State) (cap : Reg16) (q : List Element) : Prop where
  inv         : BufferInv s
  initialized : s.initialized = true
  capacity    : s.capacity = cap
  elements    : queue s = q.map some

section
variable {s : State} {cap : Reg16} {q : List Element}

theorem Holds.of_invariants (hb : BufferInv s) (ho : OccupiedInv s) (hi : s.initialized = true) :
    ∃ q, Holds s s.capacity q := by
  obtain ⟨q, hq⟩ := OccupiedInv.exists_queue_eq ho
  exact ⟨q, hb, hi, rfl, hq⟩

theorem holds_newBuffer (s : State) (h0 : cap.toNat ≠ 0) (hd : cap.toNat ≤ s.inst.depth) :
    Holds (s.newBuffer true cap) cap [] := ⟨newBuffer_bufferInv s h0 hd, rfl, rfl, rfl⟩

theorem Holds.length_eq (h : Holds s cap q) : q.length = s.count.toNat := by
  rw [← queue_length, h.elements, List.length_map]

theorem Holds.isFull_iff (h : Holds s cap q) : isFull s = true ↔ q.length = cap.toNat := by
  rw [h.inv.isFull_iff h.initialized, BitVec.toNat_eq, h.length_eq, h.capacity]

theorem Holds.isEmpty_iff (h : Holds s cap q) : isEmpty s = true ↔ q = [] := by
  rw [h.inv.isEmpty_iff h.initialized, BitVec.toNat_eq, ← h.length_eq]
  exact List.length_eq_zero_iff

theorem Holds.fullPin_of_full (h : Holds s cap q) (hlen : q.length = cap.toNat) : fullPin s = true := by
  rw [fullPin, h.initialized, h.isFull_iff.mpr hlen]; rfl

theorem Holds.emptyPin_of_nil (h : Holds s cap []) : emptyPin s = true := by
  rw [emptyPin, h.initialized, h.isEmpty_iff.mpr rfl]; rfl

theorem Holds.not_full (h : Holds s cap q) (hlen : q.length < cap.toNat) : isFull s = false :=
  Bool.eq_false_iff.mpr fun hf => hlen.ne (h.isFull_iff.mp hf)

theorem Holds.not_empty {v : Element} (h : Holds s cap (v :: q)) : isEmpty s = false :=
  Bool.eq_false_iff.mpr fun he => List.cons_ne_nil v q (h.isEmpty_iff.mp he)

theorem Holds.after_respond (h : Holds s cap q) (p : Port) (st : Status) (d : Element) :
    Holds (respond p st d s) cap q :=
  ⟨h.inv.after_respond p st d, by simp [h.initialized], by simp [h.capacity], by simp [h.elements]⟩

theorem Holds.after_fail (h : Holds s cap q) (p : Port) (st : Status) : Holds (fail p st s) cap q := h.after_respond ..

theorem Holds.after_enqueueOk (h : Holds s cap q) (hf : isFull s = false) (v : Element) :
    Holds (enqueueOk v s) cap (q ++ [v]) := by
  refine Holds.after_respond ⟨h.inv.after_pushElement h.initialized hf v, h.initialized, h.capacity, ?_⟩ ..
  rw [queue_pushElement h.inv h.initialized hf, h.elements, List.map_append]
  rfl

/-- A buffer that is not empty has an oldest element, which DEQUEUE returns. -/
theorem Holds.after_dequeueOk (h : Holds s cap q) (he : isEmpty s = false) :
    ∃ rest, q = memRead s (dequeueIndex s) :: rest ∧ Holds (dequeueOk s) cap rest := by
  have hq : q.map some = s.storage.read (dequeueIndex s).toNat :: queue (popElement s) :=
    h.elements.symm.trans (queue_popElement h.inv h.initialized he)
  obtain ⟨v, rest, rfl, hv, hrest⟩ := List.map_eq_cons_iff.mp hq
  rw [memRead_of_some hv.symm]
  exact ⟨rest, rfl, Holds.after_respond
    ⟨h.inv.after_popElement h.initialized he, h.initialized, h.capacity, hrest.symm⟩ ..⟩

/-! The outcomes of ENQUEUE and DEQUEUE on such a buffer. -/

theorem Holds.enqueue_of_room (h : Holds s cap q) (hlen : q.length < cap.toNat) (v : Element) :
    exec (.enqueue v) s = .next (enqueueOk v s) ∧ Holds (enqueueOk v s) cap (q ++ [v]) :=
  ⟨exec_enqueue_ok h.initialized (h.not_full hlen) v, h.after_enqueueOk (h.not_full hlen) v⟩

theorem Holds.enqueue_of_full (h : Holds s cap q) (hlen : q.length = cap.toNat) (v : Element) :
    exec (.enqueue v) s = .next (fail .f .full s) :=
  exec_enqueue_full h.initialized (h.isFull_iff.mpr hlen) v

theorem Holds.dequeue_of_cons {v : Element} (h : Holds s cap (v :: q)) :
    exec .dequeue s = .next (dequeueOk s) ∧ (dequeueOk s).fRsp.data = v ∧
      Holds (dequeueOk s) cap q := by
  obtain ⟨rest, hq, hrest⟩ := h.after_dequeueOk h.not_empty
  obtain ⟨rfl, rfl⟩ := List.cons.inj hq
  exact ⟨exec_dequeue_ok h.initialized h.not_empty, rfl, hrest⟩

theorem Holds.dequeue_of_nil (h : Holds s cap []) : exec .dequeue s = .next (fail .f .empty s) :=
  exec_dequeue_empty h.initialized (h.isEmpty_iff.mpr rfl)

end

/-- Settles O28: under the invariant the queue is a list of elements, and each clause is one outcome on a buffer that
holds them. -/
theorem fifoCommandsRefineTheQueue : Obligations.FifoCommandsRefineTheQueue := by
  rintro s ⟨-, hb, -, ho, -⟩ hi
  obtain ⟨q, hq⟩ := Holds.of_invariants hb ho hi
  rw [hq.elements, List.length_map]
  refine ⟨fun v hlen => ?_, fun v hlen => ?_, fun head rest hcons => ?_, fun hnil => ?_⟩
  · obtain ⟨hexec, hqueue⟩ := hq.enqueue_of_room hlen v
    exact ⟨_, hexec, enqueueOk_answers v s, by simpa using hqueue.elements⟩
  · exact ⟨_, hq.enqueue_of_full hlen v, (fail_failsWith ..).answers, (hq.after_fail ..).elements⟩
  · obtain ⟨d, rest, rfl, rfl, rfl⟩ := List.map_eq_cons_iff.mp hcons
    obtain ⟨hexec, hdata, hqueue⟩ := hq.dequeue_of_cons
    exact ⟨_, d, rfl, hexec, dequeueOk_answers s, hdata, hqueue.elements⟩
  · obtain rfl : q = [] := List.map_eq_nil_iff.mp hnil
    exact ⟨_, hq.dequeue_of_nil, (fail_failsWith ..).answers, (hq.after_fail ..).elements⟩

/-! ## What a command other than CREATE puts in and takes out -/

/-- A command other than CREATE put one element in, took one out, or neither; in the last case the registers stay, and
the storage too unless the command is WRITE_AT. -/
inductive Moves (i : Instr) (s t : State) : Prop where
  | pushed (v : Element) (hi : s.initialized = true) (hf : isFull s = false) (ht : t = enqueueOk v s)
      (hin : enqueuedBy i t = [v]) (hout : dequeuedBy i t = [])
  | popped (hi : s.initialized = true) (he : isEmpty s = false) (ht : t = dequeueOk s) (hin : enqueuedBy i t = [])
      (hout : dequeuedBy i t = [memRead s (dequeueIndex s)])
  | stayed (hregs : SameRegisters s t) (hinst : t.inst = s.inst) (hmem : isWriteAt i = false → t.storage = s.storage)
      (hin : enqueuedBy i t = []) (hout : dequeuedBy i t = [])

theorem enqueuedBy_eq_nil {i : Instr} {t : State}
    (h : ∀ v : Element, i = .enqueue v → t.fRsp.status ≠ Status.code .ok) : enqueuedBy i t = [] := by
  cases i with
  | enqueue v => exact if_neg (h v rfl)
  | _ => rfl

theorem dequeuedBy_eq_nil {i : Instr} {t : State} (h : i = .dequeue → t.fRsp.status ≠ Status.code .ok) :
    dequeuedBy i t = [] := by
  cases i with
  | dequeue => exact if_neg (h rfl)
  | _ => rfl

theorem fail_status_ne_ok {st : Status} (h : st ≠ .ok) (s : State) : (fail .f st s).fRsp.status ≠ Status.code .ok :=
  fun hcode => h (Status.code_injective hcode)

theorem exec_moves {i : Instr} {s t : State} (h : exec i s = .next t) (hc : isCreate i = false) : Moves i s t := by
  cases exec_ends h with
  | failed st herr =>
    refine .stayed (respond_sameRegisters ..) (fail_inst ..) (fun _ => fail_storage ..) (enqueuedBy_eq_nil ?_)
      (dequeuedBy_eq_nil ?_)
    · rintro v rfl; exact fail_status_ne_ok herr s
    · rintro rfl; exact fail_status_ne_ok herr s
  | answered d _ _ _ hne hnd =>
    exact .stayed (respond_sameRegisters ..) (respond_inst ..) (fun _ => respond_storage ..)
      (enqueuedBy_eq_nil fun v hv => absurd hv (hne v)) (dequeuedBy_eq_nil fun hd => absurd hd hnd)
  | pushed v hi hf => exact .pushed v hi hf rfl rfl rfl
  | popped hi he => exact .popped hi he rfl rfl rfl
  | stored idx v _ _ hw =>
    have hregs : SameRegisters s (respondNoData i.port .ok (memWrite s (absoluteIndex idx) v)) := by
      constructor <;> simp
    rcases hw with rfl | rfl <;> exact .stayed hregs rfl (fun hnw => nomatch hnw) rfl rfl
  | created | refused => cases hc

/-! ## The cursor law (R86) -/

/-- How far one command moves the cursors and `count`. -/
theorem exec_cursors {i : Instr} {s t : State} (hs : BufferInv s) (hi : s.initialized = true) (hc : isCreate i = false)
    (h : exec i s = .next t) :
    t.initialized = true ∧ t.capacity = s.capacity ∧
    t.writeCursor.toNat = (s.writeCursor.toNat + (enqueuedBy i t).length) % s.capacity.toNat ∧
    t.readCursor.toNat = (s.readCursor.toNat + (dequeuedBy i t).length) % s.capacity.toNat ∧
    t.count.toNat + (dequeuedBy i t).length = s.count.toNat + (enqueuedBy i t).length := by
  obtain ⟨-, -, hwc, hrc, -⟩ := hs.1 hi
  cases exec_moves h hc with
  | pushed v _ hf ht hin hout =>
    rw [hin, hout, ht]
    exact ⟨hi, rfl, nextCursor_toNat hwc, (Nat.mod_eq_of_lt hrc).symm, hs.countUp_of_not_full hi hf⟩
  | popped _ he ht hin hout =>
    rw [hin, hout, ht]
    exact ⟨hi, rfl, (Nat.mod_eq_of_lt hwc).symm, nextCursor_toNat hrc, hs.countDown_of_not_empty hi he⟩
  | stayed hregs _ _ hin hout =>
    rw [hin, hout, hregs.writeCursor, hregs.readCursor, hregs.count]
    exact ⟨hregs.initialized.trans hi, hregs.capacity, (Nat.mod_eq_of_lt hwc).symm, (Nat.mod_eq_of_lt hrc).symm, rfl⟩

/-- How far a sequence of commands moves the cursors and `count`. -/
theorem execAll_cursors {is : List Instr} {s t : State} (hs : BufferInv s) (hi : s.initialized = true)
    (hc : ∀ i ∈ is, isCreate i = false) (h : execAll is s = .next t) :
    t.writeCursor.toNat = (s.writeCursor.toNat + (enqueued is s).length) % s.capacity.toNat ∧
    t.readCursor.toNat = (s.readCursor.toNat + (dequeued is s).length) % s.capacity.toNat ∧
    t.count.toNat + (dequeued is s).length = s.count.toNat + (enqueued is s).length := by
  induction is generalizing s with
  | nil =>
    obtain ⟨-, -, hwc, hrc, -⟩ := hs.1 hi
    obtain rfl := next_injective h
    exact ⟨(Nat.mod_eq_of_lt hwc).symm, (Nat.mod_eq_of_lt hrc).symm, rfl⟩
  | cons i is ih =>
    obtain ⟨hci, hcs⟩ := List.forall_mem_cons.mp hc
    obtain ⟨u, hu⟩ := exec_answers i s
    obtain ⟨hiu, hcap, hwc, hrc, hcount⟩ := exec_cursors hs hi hci hu
    rw [execAll_cons, hu, andThen_next] at h
    obtain ⟨hwc', hrc', hcount'⟩ := ih (hs.after_exec hu) hiu hcs h
    rw [hwc, hcap, Nat.mod_add_mod] at hwc'
    rw [hrc, hcap, Nat.mod_add_mod] at hrc'
    rw [enqueued_cons hu, dequeued_cons hu, List.length_append, List.length_append]
    exact ⟨by rw [hwc', Nat.add_assoc], by rw [hrc', Nat.add_assoc], by omega⟩

/-- Settles O31: from a new buffer, whose cursors and `count` are 0. -/
theorem cursorLaw : Obligations.CursorLaw := by
  intro s t cap is h0 hd hc h
  have hcreate := exec_create_fits h0 hd
  rw [execAll_cons, hcreate, andThen_next] at h
  rw [enqueued_cons hcreate, dequeued_cons hcreate]
  have hinv : BufferInv (respondNoData .f .ok (s.newBuffer true cap)) := (newBuffer_bufferInv s h0 hd).after_respond ..
  simpa [enqueuedBy, dequeuedBy] using execAll_cursors hinv rfl hc h

/-! ## The FIFO law (R84) -/

/-- One command other than CREATE and WRITE_AT: what it put in comes behind the queue, what it took out came from the
front. -/
theorem Holds.after_exec {i : Instr} {s t : State} {cap : Reg16} {q : List Element} (hs : Holds s cap q)
    (hc : isCreate i = false) (hw : isWriteAt i = false) (h : exec i s = .next t) :
    ∃ q', Holds t cap q' ∧ q ++ enqueuedBy i t = dequeuedBy i t ++ q' := by
  cases exec_moves h hc with
  | pushed v _ hf ht hin hout =>
    rw [hin, hout, ht]
    exact ⟨_, hs.after_enqueueOk hf v, rfl⟩
  | popped _ he ht hin hout =>
    rw [hin, hout, ht]
    obtain ⟨rest, rfl, hrest⟩ := hs.after_dequeueOk he
    exact ⟨rest, hrest, List.append_nil _⟩
  | stayed hregs hinst hmem hin hout =>
    rw [hin, hout]
    refine ⟨q, ⟨hs.inv.of_sameRegisters hregs hinst, hregs.initialized.trans hs.initialized,
      hregs.capacity.trans hs.capacity, ?_⟩, List.append_nil q⟩
    rw [← hs.elements, queue, hregs.count, hregs.readCursor, hregs.capacity, hmem hw, queue]

theorem Holds.after_execAll {is : List Instr} {s t : State} {cap : Reg16} {q : List Element} (hs : Holds s cap q)
    (hm : ∀ i ∈ is, isCreate i = false ∧ isWriteAt i = false) (h : execAll is s = .next t) :
    ∃ q', Holds t cap q' ∧ q ++ enqueued is s = dequeued is s ++ q' := by
  induction is generalizing s q with
  | nil => exact ⟨q, next_injective h ▸ hs, List.append_nil q⟩
  | cons i is ih =>
    obtain ⟨⟨hc, hw⟩, hms⟩ := List.forall_mem_cons.mp hm
    obtain ⟨u, hu⟩ := exec_answers i s
    obtain ⟨q₁, hq₁, hstep⟩ := hs.after_exec hc hw hu
    rw [execAll_cons, hu, andThen_next] at h
    obtain ⟨q₂, hq₂, hrest⟩ := ih hq₁ hms h
    refine ⟨q₂, hq₂, ?_⟩
    rw [enqueued_cons hu, dequeued_cons hu, ← List.append_assoc, hstep, List.append_assoc, hrest, List.append_assoc]

/-! ## Sequences of ENQUEUEs and of DEQUEUEs (R84, R85) -/

/-- The statuses of the responses to a sequence of commands, in order. -/
def statuses (is : List Instr) (s : State) : List StatusCode := (responses is s).map (·.status)

theorem responses_append {is js : List Instr} {s t : State} (h : execAll is s = .next t) :
    responses (is ++ js) s = responses is s ++ responses js t := by
  induction is generalizing s with
  | nil => rw [next_injective h]; rfl
  | cons i is ih =>
    obtain ⟨u, hu⟩ := exec_answers i s
    rw [execAll_cons, hu, andThen_next] at h
    rw [List.cons_append, responses_cons hu, responses_cons hu, ih h, List.cons_append]

theorem responses_length (is : List Instr) (s : State) : (responses is s).length = is.length := by
  induction is generalizing s with
  | nil => rfl
  | cons i is ih =>
    obtain ⟨u, hu⟩ := exec_answers i s
    rw [responses_cons hu, List.length_cons, ih, List.length_cons]

theorem statuses_cons {i : Instr} {is : List Instr} {s t : State} (h : exec i s = .next t) :
    statuses (i :: is) s = (t.rsp i.port).status :: statuses is t := by rw [statuses, responses_cons h]; rfl

theorem statuses_append {is js : List Instr} {s t : State} (h : execAll is s = .next t) :
    statuses (is ++ js) s = statuses is s ++ statuses js t := by
  rw [statuses, responses_append h, List.map_append]; rfl

/-- ENQUEUEs that fit all answer `OK` and append their values. -/
theorem Holds.enqueueAll {s : State} {cap : Reg16} {q vs : List Element} (hs : Holds s cap q)
    (hfit : q.length + vs.length ≤ cap.toNat) :
    ∃ t, execAll (vs.map .enqueue) s = .next t ∧
      statuses (vs.map .enqueue) s = List.replicate vs.length (Status.code .ok) ∧ Holds t cap (q ++ vs) := by
  induction vs generalizing s q with
  | nil => exact ⟨s, rfl, rfl, (List.append_nil q).symm ▸ hs⟩
  | cons v vs ih =>
    rw [List.length_cons] at hfit
    obtain ⟨hexec, hv⟩ := hs.enqueue_of_room (by omega) v
    obtain ⟨t, hrun, hok, ht⟩ := ih hv (by rw [List.length_append, List.length_singleton]; omega)
    refine ⟨t, ?_, ?_, ?_⟩
    · rw [List.map_cons, execAll_cons, hexec, andThen_next, hrun]
    · rw [List.map_cons, statuses_cons hexec, hok]; rfl
    · rwa [List.append_assoc] at ht

/-- As many DEQUEUEs as there are oldest elements `vs` all answer `OK` and return them in order. -/
theorem Holds.dequeueAll {s : State} {cap : Reg16} {vs q : List Element} (hs : Holds s cap (vs ++ q)) :
    ∃ t, execAll (List.replicate vs.length .dequeue) s = .next t ∧
      statuses (List.replicate vs.length .dequeue) s = List.replicate vs.length (Status.code .ok) ∧
      (responses (List.replicate vs.length .dequeue) s).map (·.data) = vs ∧ Holds t cap q := by
  induction vs generalizing s with
  | nil => exact ⟨s, rfl, rfl, rfl, hs⟩
  | cons v vs ih =>
    obtain ⟨hexec, hdata, hrest⟩ := hs.dequeue_of_cons
    obtain ⟨t, hrun, hok, hvs, ht⟩ := ih hrest
    refine ⟨t, ?_, ?_, ?_, ht⟩
    · rw [List.length_cons, List.replicate_succ, execAll_cons, hexec, andThen_next, hrun]
    · rw [List.length_cons, List.replicate_succ, statuses_cons hexec, hok]; rfl
    · rw [List.length_cons, List.replicate_succ, responses_cons hexec, List.map_cons, hvs]
      exact congrArg (· :: vs) hdata

theorem sameBuffer_refl (s : State) : SameBuffer s s := ⟨⟨rfl, rfl, rfl, rfl, rfl⟩, rfl⟩

theorem SameBuffer.of_fail {p : Port} {st : Status} {s t : State} (h : SameBuffer (fail p st s) t) :
    SameBuffer s t where
  registers :=
    { initialized := h.registers.initialized.trans (fail_initialized p st s)
      capacity := h.registers.capacity.trans (fail_capacity p st s)
      writeCursor := h.registers.writeCursor.trans (fail_writeCursor p st s)
      readCursor := h.registers.readCursor.trans (fail_readCursor p st s)
      count := h.registers.count.trans (fail_count p st s) }
  storage := h.storage.trans (fail_storage p st s)

/-- Commands that fail as long as the buffer holds `q` fail again and again, because a failure leaves it as it is. -/
theorem Holds.failAll {is : List Instr} {st : Status} {s : State} {cap : Reg16} {q : List Element} (hs : Holds s cap q)
    (hfail : ∀ i ∈ is, ∀ u, Holds u cap q → exec i u = .next (fail i.port st u)) :
    ∃ t, execAll is s = .next t ∧ statuses is s = List.replicate is.length st.code ∧ SameBuffer s t ∧
      Holds t cap q := by
  induction is generalizing s with
  | nil => exact ⟨s, rfl, rfl, sameBuffer_refl s, hs⟩
  | cons i is ih =>
    obtain ⟨hi, his⟩ := List.forall_mem_cons.mp hfail
    have hexec := hi s hs
    obtain ⟨t, hrun, hst, hsame, ht⟩ := ih (hs.after_fail i.port st) his
    refine ⟨t, ?_, ?_, hsame.of_fail, ht⟩
    · rw [execAll_cons, hexec, andThen_next, hrun]
    · rw [statuses_cons hexec, hst, fail_rsp]; rfl

theorem Holds.enqueueAll_full {s : State} {cap : Reg16} {q : List Element} (hs : Holds s cap q)
    (hlen : q.length = cap.toNat) (ws : List Element) :
    ∃ t, execAll (ws.map .enqueue) s = .next t ∧
      statuses (ws.map .enqueue) s = List.replicate ws.length (Status.code .full) ∧ SameBuffer s t ∧ Holds t cap q := by
  have hfail : ∀ i ∈ ws.map Instr.enqueue, ∀ u, Holds u cap q → exec i u = .next (fail i.port .full u) :=
    fun i hi u hu => by
      obtain ⟨w, -, rfl⟩ := List.mem_map.mp hi
      exact hu.enqueue_of_full hlen w
  simpa using hs.failAll hfail

theorem Holds.dequeueAll_empty {s : State} {cap : Reg16} (hs : Holds s cap []) (k : Nat) :
    ∃ t, execAll (List.replicate k .dequeue) s = .next t ∧
      statuses (List.replicate k .dequeue) s = List.replicate k (Status.code .empty) ∧ SameBuffer s t ∧
      Holds t cap [] := by
  have hfail : ∀ i ∈ List.replicate k Instr.dequeue, ∀ u, Holds u cap [] → exec i u = .next (fail i.port .empty u) :=
    fun i hi u hu => by
      obtain rfl := List.eq_of_mem_replicate hi
      exact hu.dequeue_of_nil
  simpa using hs.failAll hfail

/-- After a CREATE, ENQUEUEs that fit: all answer `OK`, and the buffer holds their values. -/
theorem create_enqueueAll {s : State} {cap : Reg16} {vs : List Element} (h0 : cap.toNat ≠ 0)
    (hd : cap.toNat ≤ s.inst.depth) (hfit : vs.length ≤ cap.toNat) :
    ∃ t, execAll (.create cap :: vs.map .enqueue) s = .next t ∧
      statuses (.create cap :: vs.map .enqueue) s = List.replicate (vs.length + 1) (Status.code .ok) ∧
      Holds t cap vs := by
  have hcreate := exec_create_fits h0 hd
  obtain ⟨t, hrun, hok, ht⟩ := ((holds_newBuffer s h0 hd).after_respond ..).enqueueAll
    (vs := vs) (by rwa [List.length_nil, Nat.zero_add])
  refine ⟨t, ?_, ?_, ht⟩
  · rw [execAll_cons, hcreate]; exact hrun
  · rw [statuses_cons hcreate, List.replicate_succ]; exact congrArg _ hok

/-- The concrete form of R84. -/
theorem create_enqueueAll_dequeueAll {s : State} {cap : Reg16} {vs : List Element} (h0 : cap.toNat ≠ 0)
    (hd : cap.toNat ≤ s.inst.depth) (hfit : vs.length ≤ cap.toNat) :
    statuses (.create cap :: vs.map .enqueue ++ List.replicate vs.length .dequeue) s =
      List.replicate (2 * vs.length + 1) (Status.code .ok) ∧
    ((responses (.create cap :: vs.map .enqueue ++ List.replicate vs.length .dequeue) s).drop (vs.length + 1)).map
      (·.data) = vs := by
  obtain ⟨t, hrun, hok, ht⟩ := create_enqueueAll h0 hd hfit
  obtain ⟨u, -, hok', hdata, -⟩ := ((List.append_nil vs).symm ▸ ht).dequeueAll
  constructor
  · rw [statuses_append hrun, hok, hok', List.replicate_append_replicate]
    congr 1
    omega
  · rw [responses_append hrun, List.drop_left' (by simp [responses_length]), hdata]

/-- Settles O29: the general law by induction on the commands, the concrete one from a run of each kind of command. -/
theorem fifoLaw : Obligations.FifoLaw := by
  refine ⟨fun is s t hb ho hi hm h => ?_, fun _ _ _ => create_enqueueAll_dequeueAll⟩
  obtain ⟨q, hq⟩ := Holds.of_invariants hb ho hi
  obtain ⟨q', hq', hlaw⟩ := hq.after_execAll hm h
  rw [hq.elements, hq'.elements, ← List.map_append, hlaw, List.map_append]

/-- Settles O30: each of the four runs leaves a buffer whose elements are known, where the next one starts. -/
theorem fillAndDrain : Obligations.FillAndDrain := by
  intro s cap vs ws k h0 hd hlen
  obtain ⟨t, hfill, hfillOk, ht⟩ := create_enqueueAll (vs := vs) h0 hd hlen.le
  obtain ⟨u, hover, hoverFull, hsame, hu⟩ := ht.enqueueAll_full hlen ws
  obtain ⟨t', hdrain, hdrainOk, -, ht'⟩ := ((List.append_nil vs).symm ▸ hu).dequeueAll
  obtain ⟨u', hunder, hunderEmpty, hsame', -⟩ := ht'.dequeueAll_empty k
  refine ⟨?_, t, u, hfill, ht.fullPin_of_full hlen, hover, hsame, t', u', hdrain, ht'.emptyPin_of_nil, hunder, hsame'⟩
  have hrun₂ : execAll (.create cap :: vs.map .enqueue ++ ws.map .enqueue) s = .next u := by
    rw [execAll_append, hfill, andThen_next, hover]
  have hrun₃ : execAll (.create cap :: vs.map .enqueue ++ ws.map .enqueue ++ List.replicate vs.length .dequeue) s =
      .next t' := by rw [execAll_append, hrun₂, andThen_next, hdrain]
  change statuses _ s = _
  rw [statuses_append hrun₃, statuses_append hrun₂, statuses_append hfill, hfillOk, hoverFull, hdrainOk, hunderEmpty]

end Sys2Proof.Machine
end

section
/-!
SUPPORT and proofs for spec/42_indexed.md. WRITE_AT and READ_AT by their outcomes (R90, R92), and on the logical queue (R94).
-/
namespace Sys2Proof.Machine

/-! ## The outcomes that both commands share (R90, R92) -/

/-- A command whose answer depends on its index as R116 has it for WRITE_AT and READ_AT fails with one of the two errors and
changes nothing else. -/
theorem exec_indexed_failsWith {i : Instr} {s : State} (idx : Reg16) (hnc : isCreate i = false)
    (hst : expectedStatus i s = expectedStatus (.readAt idx) s) :
    (s.initialized = false → ∃ t, exec i s = .next t ∧ FailsWith i.port .notInitialized s t) ∧
    (s.initialized = true → s.capacity.toNat ≤ idx.toNat →
      ∃ t, exec i s = .next t ∧ FailsWith i.port .indexOutOfRange s t) :=
  ⟨fun hi => exec_failsWith (hst.trans (by simp [expectedStatus, hi])) (by decide) hnc,
    fun hi hr => exec_failsWith (hst.trans (by simp [expectedStatus, hi, hr])) (by decide) hnc⟩

/-- The pins are functions of the registers (R99). -/
theorem SameRegisters.pins_eq {s t : State} (h : SameRegisters s t) :
    emptyPin t = emptyPin s ∧ fullPin t = fullPin s ∧ initializedPin t = initializedPin s := by
  obtain ⟨hinit, hcap, hwc, hrc, hcount⟩ := h
  simp [emptyPin, fullPin, initializedPin, isEmpty, isFull, hinit, hcap, hwc, hrc, hcount]

/-! ## WRITE_AT by its outcomes (R90) -/

/-- What WRITE_AT does on port `p` to a slot in range. -/
def writeAtOk (p : Port) (idx : Reg16) (v : Element) (s : State) : State :=
  respondNoData p .ok (memWrite s (absoluteIndex idx) v)

section
variable {s : State} {idx : Reg16} {v : Element} {i : Instr}

theorem exec_writeAt_ok (hw : i = .writeAt idx v ∨ i = .xWriteAt idx v) (hi : s.initialized = true)
    (hr : idx.toNat < s.capacity.toNat) : exec i s = .next (writeAtOk i.port idx v s) := by
  have hok : writeAtOn i.port idx v s = writeAtOk i.port idx v s :=
    writeAtOn_eq.mpr (.inr (.inr ⟨hi, (indexInRange_iff s idx).mpr hr, rfl⟩))
  rcases hw with rfl | rfl
  · exact exec_writeAt.mpr hok
  · exact exec_xWriteAt.mpr hok

theorem writeAtOk_answers (p : Port) (idx : Reg16) (v : Element) (s : State) : Answers p .ok s (writeAtOk p idx v s) :=
  respondNoData_answers (by simp) rfl rfl

theorem writeAtOk_sameRegisters (p : Port) (idx : Reg16) (v : Element) (s : State) :
    SameRegisters s (writeAtOk p idx v s) := by constructor <;> simp [writeAtOk]

@[simp] theorem writeAtOk_storage (p : Port) (idx : Reg16) (v : Element) (s : State) :
    (writeAtOk p idx v s).storage = s.storage.write (absoluteIndex idx).toNat v := by simp [writeAtOk]

/-! ## READ_AT by its outcomes (R92) -/

theorem exec_readAt_ok (hw : i = .readAt idx ∨ i = .xReadAt idx) (hi : s.initialized = true)
    (hr : idx.toNat < s.capacity.toNat) :
    exec i s = .next (respond i.port .ok (memRead s (absoluteIndex idx)) s) := by
  have hok : readAtOn i.port idx s = respond i.port .ok (memRead s (absoluteIndex idx)) s :=
    readAtOn_eq.mpr (.inr (.inr ⟨hi, (indexInRange_iff s idx).mpr hr, rfl⟩))
  rcases hw with rfl | rfl
  · exact exec_readAt.mpr hok
  · exact exec_xReadAt.mpr hok

/-- A slot that has not been written reads as some `DW`-bit value (R36, R93). -/
theorem memRead_lt_of_none (h : s.storage.read idx.toNat = none) : memRead s idx < 2 ^ s.inst.dw := by
  rw [memRead, h]
  exact BitVec.isLt _

end

/-- Settles O32: both errors are those of any indexed command, and a success writes the slot and no register. -/
theorem writeAtStoresOneSlot : Obligations.WriteAtStoresOneSlot := by
  refine ⟨fun _ _ _ => ⟨rfl, rfl⟩, fun s idx v i hw => ?_⟩
  have hnc : isCreate i = false := by rcases hw with rfl | rfl <;> rfl
  have hst : expectedStatus i s = expectedStatus (.readAt idx) s := by rcases hw with rfl | rfl <;> rfl
  obtain ⟨hnotInit, hrange⟩ := exec_indexed_failsWith idx hnc hst
  have hregs := writeAtOk_sameRegisters i.port idx v s
  refine ⟨hnotInit, hrange, fun hi hr => ⟨_, exec_writeAt_ok hw hi hr, writeAtOk_answers .., ?_, fun a ha => ?_, hregs,
    hregs.pins_eq⟩⟩
  · simp
  · rw [writeAtOk_storage, Memory.read_write_other _ v ha]

/-- Settles O33: both errors are those of any indexed command, and a success answers with what the slot reads as. -/
theorem readAtReturnsTheSlot : Obligations.ReadAtReturnsTheSlot := by
  refine ⟨fun _ _ _ => ⟨rfl, rfl⟩, fun s idx i hw => ?_⟩
  have hnc : isCreate i = false := by rcases hw with rfl | rfl <;> rfl
  have hst : expectedStatus i s = expectedStatus (.readAt idx) s := by rcases hw with rfl | rfl <;> rfl
  obtain ⟨hnotInit, hrange⟩ := exec_indexed_failsWith idx hnc hst
  refine ⟨hnotInit, hrange, fun hi hr => ⟨_, exec_readAt_ok hw hi hr, respond_answers rfl rfl rfl,
    respond_sameRegisters .., fun _ => by simp, ?_⟩⟩
  rw [respond_rsp]
  exact ⟨fun _ => memRead_of_some, memRead_lt_of_none⟩

/-! ## The indexed commands on the logical queue (R94) -/

section
variable {s : State} {idx : Reg16}

/-- `aheadOfReadCursor s idx` slots on from `readCursor` is slot `idx`. -/
theorem slot_aheadOfReadCursor (hrc : s.readCursor.toNat < s.capacity.toNat) (hr : idx.toNat < s.capacity.toNat) :
    (s.readCursor.toNat + aheadOfReadCursor s idx) % s.capacity.toNat = idx.toNat := by
  rw [aheadOfReadCursor, Nat.add_mod_mod, Nat.add_sub_cancel' (by omega), Nat.add_mod_right, Nat.mod_eq_of_lt hr]

/-- Once around the buffer, slot `idx` is met at that distance alone. -/
theorem slot_eq_iff {k : Nat} (hrc : s.readCursor.toNat < s.capacity.toNat) (hr : idx.toNat < s.capacity.toNat)
    (hk : k < s.capacity.toNat) :
    (s.readCursor.toNat + k) % s.capacity.toNat = idx.toNat ↔ aheadOfReadCursor s idx = k := by
  have hslot := slot_aheadOfReadCursor hrc hr
  have hlt : aheadOfReadCursor s idx < s.capacity.toNat := Nat.mod_lt _ (Nat.zero_lt_of_lt hk)
  exact ⟨fun h => offset_ne hlt hk (hslot.trans h.symm), fun h => h ▸ hslot⟩

theorem queue_getElem {k : Nat} (hk : k < (queue s).length) :
    (queue s)[k] = s.storage.read ((s.readCursor.toNat + k) % s.capacity.toNat) := by simp [queue]

/-- A write below `capacity` replaces the element of its slot; on a slot that is not occupied the `set` is beyond the end of
the queue and does nothing. -/
theorem queue_memWrite (h : BufferInv s) (hi : s.initialized = true) (hr : idx.toNat < s.capacity.toNat) (v : Element) :
    queue (memWrite s idx v) = (queue s).set (aheadOfReadCursor s idx) (some v) := by
  obtain ⟨-, -, -, hrc, hle, -⟩ := h.1 hi
  refine List.ext_getElem (by simp) fun k hk _ => ?_
  have hcount : k < s.count.toNat := by simpa using hk
  simp only [queue_getElem, List.getElem_set, memWrite_storage, memWrite_readCursor, memWrite_capacity,
    Memory.read_write, slot_eq_iff hrc hr (hcount.trans_le hle)]

/-- Element `aheadOfReadCursor s idx` of the queue is the one READ_AT finds in slot `idx`. -/
theorem queue_getElem?_aheadOfReadCursor (h : BufferInv s) (ho : OccupiedInv s) (hi : s.initialized = true)
    (hr : idx.toNat < s.capacity.toNat) (hk : aheadOfReadCursor s idx < s.count.toNat) :
    (queue s)[aheadOfReadCursor s idx]? = some (some (memRead s idx)) := by
  obtain ⟨-, -, -, hrc, -⟩ := h.1 hi
  have hslot := slot_aheadOfReadCursor hrc hr
  obtain ⟨w, hw⟩ := Option.isSome_iff_exists.mp (ho _ hk)
  rw [List.getElem?_eq_getElem (by simpa using hk), queue_getElem, hw, memRead_of_some (hslot ▸ hw)]

theorem queue_writeAtOk (h : BufferInv s) (hi : s.initialized = true) (hr : idx.toNat < s.capacity.toNat) (p : Port)
    (v : Element) : queue (writeAtOk p idx v s) = (queue s).set (aheadOfReadCursor s idx) (some v) :=
  (queue_respond ..).trans (queue_memWrite h hi hr v)

end

/-- Settles O34: slot `idx` is the `k`-th ahead of `readCursor` and no other one, so a write sets that element alone and a read
returns it. -/
theorem indexedCommandsOnTheQueue : Obligations.IndexedCommandsOnTheQueue := by
  rintro s idx v i ⟨-, hb, -, ho, -⟩ hi hr
  refine ⟨fun hw => ?_, fun hw => ?_⟩
  · have hexec := exec_writeAt_ok hw hi hr
    have hqueue := queue_writeAtOk hb hi hr i.port v
    have hregs := writeAtOk_sameRegisters i.port idx v s
    obtain ⟨hempty, hfull, -⟩ := hregs.pins_eq
    refine ⟨_, hexec, writeAtOk_answers .., ?_, by simp [hqueue], hregs, hempty, hfull, hb.after_exec hexec⟩
    split
    case isTrue => exact hqueue
    case isFalse hk => rw [hqueue, List.set_eq_of_length_le (by simpa using hk)]
  · refine ⟨_, exec_readAt_ok hw hi hr, respond_answers rfl rfl rfl, queue_respond .., ?_⟩
    rw [respond_rsp]
    exact ⟨queue_getElem?_aheadOfReadCursor hb ho hi hr, fun _ => memRead_of_some⟩

end Sys2Proof.Machine
end

section
/-!
SUPPORT and proofs for spec/43_status.md. IS_EMPTY and IS_FULL as one operation that reports a flag (R96, R97), which changes
nothing (R101); the status pins (R99); the flag truth table (R100).
-/
namespace Sys2Proof.Machine

/-! ## Reporting a flag (R96, R97) -/

/-- What IS_EMPTY and IS_FULL have in common: report the flag `b`, or `NotInitialized`. -/
def reportFlag (b : Bool) (s : State) : State := ifInitialized .f s (respond .f .ok (flagData b) s)

theorem exec_isEmpty_eq_reportFlag (s : State) : exec .isEmpty s = .next (reportFlag (isEmpty s) s) := rfl

theorem exec_isFull_eq_reportFlag (s : State) : exec .isFull s = .next (reportFlag (isFull s) s) := rfl

theorem reportFlag_uninitialized {s : State} (hi : s.initialized = false) (b : Bool) :
    reportFlag b s = fail .f .notInitialized s := ifInitialized_false hi _

theorem reportFlag_initialized {s : State} (hi : s.initialized = true) (b : Bool) :
    reportFlag b s = respond .f .ok (flagData b) s := ifInitialized_true hi _

theorem reportFlag_sameBuffer (b : Bool) (s : State) : SameBuffer s (reportFlag b s) := by
  cases hi : s.initialized with
  | false =>
    rw [reportFlag_uninitialized hi]
    exact ⟨respond_sameRegisters .., fail_storage ..⟩
  | true =>
    rw [reportFlag_initialized hi]
    exact ⟨respond_sameRegisters .., respond_storage ..⟩

theorem reportFlag_failsWith {s : State} (hi : s.initialized = false) (b : Bool) :
    FailsWith .f .notInitialized s (reportFlag b s) := reportFlag_uninitialized hi b ▸ fail_failsWith ..

theorem reportFlag_answers {s : State} (hi : s.initialized = true) (b : Bool) :
    Answers .f .ok s (reportFlag b s) ∧ (reportFlag b s).fRsp.data = flagData b := by
  rw [reportFlag_initialized hi]
  exact ⟨respond_answers rfl rfl rfl, rfl⟩

/-- The last clauses of R96 and R97, for a flag that stands for the proposition `P`. -/
theorem reportFlag_reports {s : State} (hi : s.initialized = true) {b : Bool} {P : Prop} [Decidable P]
    (hb : b = true ↔ P) : Answers .f .ok s (reportFlag b s) ∧ SameRegisters s (reportFlag b s) ∧
      SameStorage s (reportFlag b s) ∧ (reportFlag b s).fRsp.data = if P then 1 else 0 := by
  obtain ⟨hans, hdata⟩ := reportFlag_answers hi b
  obtain ⟨hregs, hstorage⟩ := reportFlag_sameBuffer b s
  exact ⟨hans, hregs, fun _ => by rw [hstorage], hdata.trans (flagData_eq_ite hb)⟩

/-- Settles O35: both commands report a flag, which is `true` exactly where the predicate holds. -/
theorem statusCommandsReportThePredicates : Obligations.StatusCommandsReportThePredicates :=
  ⟨fun _ _ _ => ⟨rfl, rfl⟩, fun s =>
    ⟨fun hi => ⟨⟨_, exec_isEmpty_eq_reportFlag s, reportFlag_failsWith hi _⟩,
        ⟨_, exec_isFull_eq_reportFlag s, reportFlag_failsWith hi _⟩⟩,
      fun hi => ⟨⟨_, exec_isEmpty_eq_reportFlag s, reportFlag_reports hi (isEmpty_true_iff s)⟩,
        ⟨_, exec_isFull_eq_reportFlag s, reportFlag_reports hi (isFull_true_iff s)⟩⟩⟩⟩

/-! ## Purity (R101) -/

theorem SameRegisters.isEmpty_eq {s s' : State} (h : SameRegisters s s') : isEmpty s' = isEmpty s := by
  simp [isEmpty, h.count, h.writeCursor, h.readCursor]

theorem SameRegisters.isFull_eq {s s' : State} (h : SameRegisters s s') : isFull s' = isFull s := by
  simp [isFull, h.count, h.capacity, h.writeCursor, h.readCursor]

/-- The report of one flag depends on `initialized` alone, up to the unspecified data of a failure. -/
theorem SameRegisters.reportFlag_rsp {s s' : State} (h : SameRegisters s s') (b : Bool) :
    (reportFlag b s').fRsp.status = (reportFlag b s).fRsp.status ∧
      ((reportFlag b s).fRsp.status = Status.code .ok → (reportFlag b s').fRsp.data = (reportFlag b s).fRsp.data) := by
  cases hi : s.initialized with
  | false =>
    rw [reportFlag_uninitialized hi, reportFlag_uninitialized (h.initialized.trans hi)]
    exact ⟨rfl, fun hok => absurd hok (fail_status_ne_ok (by decide) s)⟩
  | true =>
    rw [reportFlag_initialized hi, reportFlag_initialized (h.initialized.trans hi)]
    exact ⟨rfl, fun _ => rfl⟩

/-- Reporting a flag that is a function of the registers is pure. -/
theorem reportFlag_pure {flag : State → Bool} (hflag : ∀ {u u' : State}, SameRegisters u u' → flag u' = flag u)
    {s s' t t' : State} (ht : (.next (reportFlag (flag s) s) : Result) = .next t)
    (ht' : (.next (reportFlag (flag s') s') : Result) = .next t') :
    SameBuffer s t ∧ (SameRegisters s s' → t'.fRsp.status = t.fRsp.status ∧
      (t.fRsp.status = Status.code .ok → t'.fRsp.data = t.fRsp.data)) := by
  obtain rfl := next_injective ht
  obtain rfl := next_injective ht'
  refine ⟨reportFlag_sameBuffer .., fun h => ?_⟩
  rw [hflag h]
  exact h.reportFlag_rsp _

/-- Settles O36: both commands report a flag that is a function of the registers. -/
theorem statusCommandsArePure : Obligations.StatusCommandsArePure := by
  rintro i s s' t t' (rfl | rfl) ht ht'
  · rw [exec_isEmpty_eq_reportFlag] at ht ht'
    exact reportFlag_pure SameRegisters.isEmpty_eq ht ht'
  · rw [exec_isFull_eq_reportFlag] at ht ht'
    exact reportFlag_pure SameRegisters.isFull_eq ht ht'

/-! ## The status pins (R99) -/

theorem emptyPin_true_iff (s : State) :
    emptyPin s = true ↔ s.initialized = true ∧ s.count = 0 ∧ s.writeCursor = s.readCursor := by
  rw [emptyPin, Bool.and_eq_true, isEmpty_true_iff]

theorem fullPin_true_iff (s : State) :
    fullPin s = true ↔ s.initialized = true ∧ s.count = s.capacity ∧ s.writeCursor = s.readCursor := by
  rw [fullPin, Bool.and_eq_true, isFull_true_iff]

/-- Settles O37: a pin is its predicate gated with `initialized`, which reset clears. -/
theorem statusPins : Obligations.StatusPins :=
  ⟨fun s => ⟨rfl, emptyPin_true_iff s, fullPin_true_iff s⟩, pins_of_uninitialized rfl⟩

/-! ## The flag truth table (R100) -/

section
variable {s : State} {e f : Bool}

theorem emptyPin_of_initialized (hi : s.initialized = true) : emptyPin s = isEmpty s := by
  rw [emptyPin, hi, Bool.true_and]

theorem fullPin_of_initialized (hi : s.initialized = true) : fullPin s = isFull s := by
  rw [fullPin, hi, Bool.true_and]

theorem replies_enqueue (hi : s.initialized = true) (hf : isFull s = f) (v : Element) :
    Replies (.enqueue v) s (if f then .full else .ok) := by
  subst hf
  cases hf : isFull s with
  | false => exact ⟨_, exec_enqueue_ok hi hf v, enqueueOk_answers v s⟩
  | true => exact ⟨_, exec_enqueue_full hi hf v, (fail_failsWith ..).answers⟩

theorem replies_dequeue (hi : s.initialized = true) (he : isEmpty s = e) :
    Replies .dequeue s (if e then .empty else .ok) := by
  subst he
  cases he : isEmpty s with
  | false => exact ⟨_, exec_dequeue_ok hi he, dequeueOk_answers s⟩
  | true => exact ⟨_, exec_dequeue_empty hi he, (fail_failsWith ..).answers⟩

/-- One row of the table, in any initialized state: the two predicates fix the pins, the reports and what the next ENQUEUE
and DEQUEUE answer. -/
theorem flagTable_row (hi : s.initialized = true) (he : isEmpty s = e) (hf : isFull s = f) (v : Element) :
    emptyPin s = e ∧ fullPin s = f ∧ RepliesWith .isEmpty s .ok (flagData e) ∧ RepliesWith .isFull s .ok (flagData f) ∧
      Replies (.enqueue v) s (if f then .full else .ok) ∧ Replies .dequeue s (if e then .empty else .ok) := by
  refine ⟨(emptyPin_of_initialized hi).trans he, (fullPin_of_initialized hi).trans hf, ?_, ?_, replies_enqueue hi hf v,
    replies_dequeue hi he⟩
  · exact ⟨_, he ▸ exec_isEmpty_eq_reportFlag s, reportFlag_answers hi e⟩
  · exact ⟨_, hf ▸ exec_isFull_eq_reportFlag s, reportFlag_answers hi f⟩

theorem replies_notInitialized {i : Instr} (hst : expectedStatus i s = .notInitialized) (hnc : isCreate i = false) :
    Replies i s .notInitialized := by
  obtain ⟨t, ht, hfails⟩ := exec_failsWith hst (by decide) hnc
  exact ⟨t, ht, hfails.answers⟩

/-- The row of the uninitialized controller. -/
theorem flagTable_row_uninitialized (hi : s.initialized = false) (v : Element) :
    emptyPin s = false ∧ fullPin s = false ∧ Replies .isEmpty s .notInitialized ∧ Replies .isFull s .notInitialized ∧
      Replies (.enqueue v) s .notInitialized ∧ Replies .dequeue s .notInitialized := by
  obtain ⟨-, hempty, hfull⟩ := pins_of_uninitialized hi
  refine ⟨hempty, hfull, ?_, ?_, ?_, ?_⟩ <;> exact replies_notInitialized (if_pos hi) rfl

theorem BufferInv.two_le_capacity (h : BufferInv s) (h0 : s.count ≠ 0) (hcap : s.count ≠ s.capacity) :
    2 ≤ s.capacity.toNat := by
  have hle := h.count_le_capacity
  bv_omega

end

/-- Settles O38: under the invariant `count` alone decides which of the two predicates hold, and so the row. -/
theorem flagTruthTable : Obligations.FlagTruthTable := by
  refine fun s v h => ⟨fun hi => flagTable_row_uninitialized hi v, fun hi h0 => ?_, fun hi h0 hcap => ?_, fun hi hcap => ?_⟩
  · have he := (h.isEmpty_iff hi).mpr h0
    have hf : isFull s = false := Bool.eq_false_iff.mpr fun hf => h.not_empty_and_full hi ⟨he, hf⟩
    exact flagTable_row hi he hf v
  · have he : isEmpty s = false := Bool.eq_false_iff.mpr fun he => h0 ((h.isEmpty_iff hi).mp he)
    have hf : isFull s = false := Bool.eq_false_iff.mpr fun hf => hcap ((h.isFull_iff hi).mp hf)
    exact ⟨h.two_le_capacity h0 hcap, flagTable_row hi he hf v⟩
  · have hf := (h.isFull_iff hi).mpr hcap
    have he : isEmpty s = false := Bool.eq_false_iff.mpr fun he => h.not_empty_and_full hi ⟨he, hf⟩
    exact flagTable_row hi he hf v

end Sys2Proof.Machine
end

section
/-!
SUPPORT and proofs for spec/44_arbiter.md. The arbiter (R105, R106); acceptance (R107, R133); port X's commands (R103); a slot
that both ports use in one cycle (R108); starvation of port X (R110); port F untouched by port X (R111).
-/
namespace Sys2Proof.Machine

/-! ## The arbiter (R105, R106) -/

theorem needF_eq_write_iff : ∀ op : Opcode, needF op = .write ↔ op = 2 ∨ op = 4 := by decide
theorem needF_eq_read_iff : ∀ op : Opcode, needF op = .read ↔ op = 3 ∨ op = 5 := by decide
theorem needX_eq_write_iff : ∀ op : Opcode, needX op = .write ↔ op = 4 := by decide
theorem needX_eq_read_iff : ∀ op : Opcode, needX op = .read ↔ op = 5 := by decide

/-- Settles O40: each need is a table over the 16 opcodes. -/
theorem memoryPortNeeds : Obligations.MemoryPortNeeds := fun op =>
  ⟨needF_eq_write_iff op, needF_eq_read_iff op, needX_eq_write_iff op, needX_eq_read_iff op⟩

theorem xReady_false_iff (inp : CycleInput) : xReady inp = false ↔
    inp.f.valid = true ∧ needF inp.f.cmd.op ≠ .none ∧ needF inp.f.cmd.op = needX inp.x.cmd.op := by
  simp [xReady, conflict, and_assoc]

/-- Two commands that need the same memory port both need the write port or both the read port. -/
theorem sameNeed_iff (a b : MemoryPort) :
    a ≠ .none ∧ a = b ↔ (a = .write ∧ b = .write) ∨ (a = .read ∧ b = .read) := by
  cases a <;> simp [eq_comm]

/-- Settles O41: a conflict is on the write port or on the read port, and each has two opcodes of port F and one of port X. -/
theorem xReadyFourCases : Obligations.XReadyFourCases := by
  intro inp
  rw [xReady_false_iff, sameNeed_iff, needF_eq_write_iff, needF_eq_read_iff, needX_eq_write_iff, needX_eq_read_iff]
  simp only [or_and_right, or_assoc]

/-! ## Acceptance (R107, R133) -/

theorem acceptedF_iff (inp : CycleInput) : acceptedF inp = true ↔ inp.rst = false ∧ inp.f.valid = true := by
  simp [acceptedF]

theorem acceptedX_iff (c : Instance) (inp : CycleInput) : acceptedX c inp = true ↔
    c.xport = true ∧ inp.rst = false ∧ inp.x.valid = true ∧ xReady inp = true := by simp [acceptedX, and_assoc]

theorem edgeF_of_accepted {inp : CycleInput} (h : acceptedF inp = true) (s : State) :
    edgeF inp s = exec (decodeF s.inst.dw inp.f.cmd) s := if_pos h

theorem edgeX_of_accepted {inp : CycleInput} {s : State} (h : acceptedX s.inst inp = true) :
    edgeX inp s = exec (decodeX s.inst.dw inp.x.cmd) s := if_pos h

theorem edgeX_of_not_accepted {inp : CycleInput} {s : State} (h : acceptedX s.inst inp = false) :
    edgeX inp s = .next (noResponseX s) := if_neg (by simp [h])

theorem cycle_of_rst {inp : CycleInput} (h : inp.rst = true) (s : State) : cycle inp s = .next (resetEdge s) := if_pos h

theorem cycle_of_edgeF {inp : CycleInput} {s u : State} (hr : inp.rst = false) (hf : edgeF inp s = .next u) :
    cycle inp s = edgeX inp u := by simp [cycle, hr, hf]

/-- Port F's part of an edge does not change the parameters (R34). -/
theorem edgeF_inst {inp : CycleInput} {s u : State} (h : edgeF inp s = .next u) : u.inst = s.inst := by
  obtain ⟨u', hu', hinst, -⟩ := edgeF_answers inp s
  exact next_injective (h.symm.trans hu') ▸ hinst

/-- Port X's part of an edge does not touch port F's response. -/
theorem edgeX_fRsp {inp : CycleInput} {u t : State} (h : edgeX inp u = .next t) : t.fRsp = u.fRsp := by
  obtain ⟨t', ht', -, -, hrsp, -⟩ := edgeX_answers inp u
  exact next_injective (h.symm.trans ht') ▸ hrsp

theorem cycle_of_acceptedX {inp : CycleInput} {s u : State} (h : acceptedX s.inst inp = true)
    (hf : edgeF inp s = .next u) : cycle inp s = exec (decodeX s.inst.dw inp.x.cmd) u := by
  have hinst := edgeF_inst hf
  obtain ⟨-, hr, -⟩ := (acceptedX_iff _ _).mp h
  rw [cycle_of_edgeF hr hf, edgeX_of_accepted (hinst.symm ▸ h), hinst]

theorem acceptedX_idlePins (c : Instance) (inp : CycleInput) : acceptedX c { inp with x := idlePins } = false := by
  simp [acceptedX, idlePins]

theorem resetEdge_fRsp_valid (s : State) : (resetEdge s).fRsp.valid = false := by simp [resetEdge]

theorem resetEdge_xRsp_valid {s : State} (h : s.inst.xport = true) : (resetEdge s).xRsp.valid = false :=
  (noResponseX_xRsp _).1 (by simpa using h)

/-- Without reset, port F's command is not accepted only where none is presented. -/
theorem cycle_of_not_acceptedF {inp : CycleInput} {s t : State} (h : acceptedF inp = false)
    (hc : cycle inp s = .next t) : cycle { inp with f := idlePins } s = .next t ∧ t.fRsp.valid = false := by
  rcases cycle_cases hc with ⟨hr, rfl⟩ | ⟨hr, u, hf, hx⟩
  · exact ⟨cycle_of_rst (inp := { inp with f := idlePins }) hr s, resetEdge_fRsp_valid s⟩
  · have hv : inp.f.valid = false := by simpa [acceptedF, hr] using h
    obtain rfl : noResponse .f s = u := next_injective ((edgeF_of_not_valid hv s).symm.trans hf)
    exact ⟨(cycle_ignores_f_fields _ s hv).symm.trans hc, congrArg Response.valid (edgeX_fRsp hx)⟩

theorem cycle_of_not_acceptedX {inp : CycleInput} {s t : State} (h : acceptedX s.inst inp = false)
    (hc : cycle inp s = .next t) :
    cycle { inp with x := idlePins } s = .next t ∧ (s.inst.xport = true → t.xRsp.valid = false) := by
  rcases cycle_cases hc with ⟨hr, rfl⟩ | ⟨hr, u, hf, hx⟩
  · exact ⟨cycle_of_rst (inp := { inp with x := idlePins }) hr s, resetEdge_xRsp_valid⟩
  · have hinst := edgeF_inst hf
    obtain rfl : noResponseX u = t := next_injective ((edgeX_of_not_accepted (hinst.symm ▸ h)).symm.trans hx)
    exact ⟨cycle_of_parts hr hf (edgeX_of_not_accepted (acceptedX_idlePins ..)),
      fun hp => (noResponseX_xRsp u).1 (hinst.symm ▸ hp)⟩

/-- Settles O42: an accepted command is its port's part of the edge, and a port without one has the part it has when idle. -/
theorem onlyAcceptedCommandsAct : Obligations.OnlyAcceptedCommandsAct :=
  ⟨acceptedF_iff, acceptedX_iff,
    fun s _ inp ha hf => cycle_of_edgeF ((acceptedF_iff inp).mp ha).1 ((edgeF_of_accepted ha s).trans hf),
    fun _ _ _ => cycle_of_acceptedX, fun _ _ _ => cycle_of_not_acceptedF, fun _ _ _ => cycle_of_not_acceptedX⟩

/-! ## Port X's commands (R103) -/

/-- Every command is answered with the status that the causes of R116 give it. -/
theorem exec_answers_expected {i : Instr} {s t : State} (h : exec i s = .next t) :
    Answers i.port (expectedStatus i s) s t := by
  cases exec_ends h with
  | failed st _ hst => rw [hst]; exact (fail_failsWith i.port st s).answers
  | answered d hst => rw [hst]; exact respond_answers rfl rfl rfl
  | pushed v _ _ hst => rw [hst]; exact enqueueOk_answers v s
  | popped _ _ hst => rw [hst]; exact dequeueOk_answers s
  | stored idx v _ _ _ hst => rw [hst]; exact writeAtOk_answers i.port idx v s
  | created _ _ _ hst => rw [hst]; exact respondNoData_answers rfl rfl rfl
  | refused _ _ hst => rw [hst]; exact respondNoData_answers rfl rfl rfl

/-- A command of port X changes no register, and no slot but the one it stores to. -/
theorem exec_x_frame {i : Instr} {s t : State} (hp : i.port = .x) (h : exec i s = .next t) :
    SameRegisters s t ∧ ∀ a : Nat, storeIndex i s ≠ some a → t.storage.read a = s.storage.read a := by
  cases exec_ends h with
  | failed | answered => exact ⟨respond_sameRegisters .., fun _ _ => by simp⟩
  | stored idx v _ _ hw =>
    have hidx : storeIndex i s = some (absoluteIndex idx).toNat := by rcases hw with rfl | rfl <;> rfl
    refine ⟨writeAtOk_sameRegisters .., fun a ha => ?_⟩
    have hne : a ≠ (absoluteIndex idx).toNat := fun h => ha (h ▸ hidx)
    simp [Memory.read_write_other _ v hne]
  | pushed | popped | created | refused => cases hp

/-- A command with the two checks of the indexed commands differs from port to port in where the response goes alone, if
its success does. -/
theorem checkedIndex_eq_respond {s u : State} (hu : u.fRsp = s.fRsp) (idx : Reg16) (st : Status) (d : Element) :
    ∃ (st' : Status) (d' : Element) (u' : State), u'.fRsp = s.fRsp ∧ ∀ p : Port,
      ifInitialized p s (if indexInRange s idx then respond p st d u else fail p .indexOutOfRange s) =
        respond p st' d' u' := by
  cases hi : s.initialized with
  | false => exact ⟨.notInitialized, unspecifiedData s, s, rfl, fun _ => ifInitialized_false hi _⟩
  | true =>
    cases hr : indexInRange s idx with
    | false => exact ⟨.indexOutOfRange, unspecifiedData s, s, rfl, fun _ => ifInitialized_true hi _⟩
    | true => exact ⟨st, d, u, hu, fun _ => ifInitialized_true hi _⟩

theorem writeAtOn_eq_respond (idx : Reg16) (v : Element) (s : State) : ∃ (st : Status) (d : Element) (u : State),
    u.fRsp = s.fRsp ∧ ∀ p : Port, writeAtOn p idx v s = respond p st d u :=
  checkedIndex_eq_respond (memWrite_fRsp s (absoluteIndex idx) v) idx .ok _

theorem readAtOn_eq_respond (idx : Reg16) (s : State) : ∃ (st : Status) (d : Element) (u : State),
    u.fRsp = s.fRsp ∧ ∀ p : Port, readAtOn p idx s = respond p st d u := checkedIndex_eq_respond rfl idx .ok _

/-- The opcodes that are legal on port X do one thing on both ports and give one response, each on its own. -/
theorem exec_indexed_eq_respond (s : State) (c : Command) (h : c.op = 0 ∨ c.op = 4 ∨ c.op = 5) :
    ∃ (st : Status) (d : Element) (u : State), u.fRsp = s.fRsp ∧
      exec (decodeF s.inst.dw c) s = .next (respond .f st d u) ∧
      exec (decodeX s.inst.dw c) s = .next (respond .x st d u) := by
  obtain ⟨op, arg, wdata⟩ := c
  rcases h with rfl | rfl | rfl
  · exact ⟨_, _, s, rfl, exec_nop.mpr rfl, exec_xNop.mpr rfl⟩
  · obtain ⟨st, d, u, hu, hop⟩ := writeAtOn_eq_respond arg (wdata % 2 ^ s.inst.dw) s
    exact ⟨st, d, u, hu, exec_writeAt.mpr (hop .f), exec_xWriteAt.mpr (hop .x)⟩
  · obtain ⟨st, d, u, hu, hop⟩ := readAtOn_eq_respond arg s
    exact ⟨st, d, u, hu, exec_readAt.mpr (hop .f), exec_xReadAt.mpr (hop .x)⟩

theorem decodeF_readAt (dw : Nat) {c : Command} (h : c.op = 5) : decodeF dw c = .readAt c.arg := by simp [decodeF, h]

/-- A READ_AT that answers `OK` answers with the value of a written slot (R92). -/
theorem readAt_data_of_ok {s t : State} {idx : Reg16} {v : Element} (h : exec (.readAt idx) s = .next t)
    (hok : t.fRsp.status = Status.code .ok) (hv : s.storage.read idx.toNat = some v) : t.fRsp.data = v := by
  have hst : expectedStatus (.readAt idx) s = .ok :=
    Status.code_injective ((exec_answers_expected h).status.symm.trans hok)
  exact exec_carriesPromise h v ((promisedData_readAt hst).trans hv)

theorem expectedStatus_decodeX_illegal (dw : Nat) {c : Command} (s : State) (h : ¬(c.op = 0 ∨ c.op = 4 ∨ c.op = 5)) :
    expectedStatus (decodeX dw c) s = .illegalCommand ∧ isCreate (decodeX dw c) = false := by
  simp only [← BitVec.toNat_inj, not_or] at h
  obtain ⟨h0, h4, h5⟩ := h
  unfold decodeX
  split
  case h_1 heq => exact absurd heq h0
  case h_5 heq => exact absurd heq h4
  case h_6 heq => exact absurd heq h5
  all_goals exact ⟨rfl, rfl⟩

/-- Settles O39: the legal opcodes are one operation with one response on the port asked, the others have the one cause of
`IllegalCommand`, and no command of port X ends in a way that writes a register. -/
theorem portXIsTheIndexedSubset : Obligations.PortXIsTheIndexedSubset := by
  refine fun s c => ⟨fun h => ?_, fun h => ?_, ?_⟩
  · obtain ⟨st, d, u, hu, htf, htx⟩ := exec_indexed_eq_respond s c h
    refine ⟨_, _, htf, htx, ⟨⟨rfl, rfl, rfl, rfl, rfl⟩, rfl⟩, rfl, rfl, rfl, hu, fun hop hok v hv => ?_⟩
    rw [decodeF_readAt _ hop] at htf
    have hd : d = v := readAt_data_of_ok htf hok hv
    exact ⟨hd, hd⟩
  · obtain ⟨hst, hnc⟩ := expectedStatus_decodeX_illegal s.inst.dw s h
    exact decodeX_port s.inst.dw c ▸ exec_failsWith hst (by decide) hnc
  · obtain ⟨t, ht⟩ := exec_answers (decodeX s.inst.dw c) s
    exact ⟨t, ht, (exec_x_frame (decodeX_port ..) ht).1⟩

/-! ## The same slot in the same cycle (R108) -/

/-- A cycle with a command on each port and no conflict: port F's command, then port X's in the state it left. -/
theorem cycle_presentBoth {s u t : State} {cf cx : Command} (hp : s.inst.xport = true)
    (hready : xReady (presentBoth cf cx) = true) (hf : exec (decodeF s.inst.dw cf) s = .next u)
    (hx : exec (decodeX s.inst.dw cx) u = .next t) : cycle (presentBoth cf cx) s = .next t := by
  have ha : acceptedX s.inst (presentBoth cf cx) = true := (acceptedX_iff _ _).mpr ⟨hp, rfl, rfl, hready⟩
  have hedge : edgeF (presentBoth cf cx) s = .next u := (edgeF_of_accepted rfl s).trans hf
  exact (cycle_of_acceptedX ha hedge).trans hx

section
variable {u : State} {idx : Reg16} {v : Element}

theorem exec_xReadAt_of_written (hi : u.initialized = true) (hr : idx.toNat < u.capacity.toNat)
    (hv : u.storage.read idx.toNat = some v) : ∃ t, exec (.xReadAt idx) u = .next t ∧ t.fRsp = u.fRsp ∧
      t.xRsp.status = Status.code .ok ∧ t.xRsp.data = v :=
  ⟨_, exec_readAt_ok (.inr rfl) hi hr, rfl, rfl, memRead_of_some hv⟩

theorem exec_xWriteAt_stores (hi : u.initialized = true) (hr : idx.toNat < u.capacity.toNat) (v : Element) :
    ∃ t, exec (.xWriteAt idx v) u = .next t ∧ t.fRsp = u.fRsp ∧ t.xRsp.status = Status.code .ok ∧
      t.storage.read idx.toNat = some v :=
  ⟨_, exec_writeAt_ok (.inr rfl) hi hr, rfl, rfl, Memory.read_write_same ..⟩

end

/-- X's indexed commands are checked as READ_AT is (R116). -/
theorem expectedStatus_decodeX_indexed {opx : Opcode} (h : opx = 4 ∨ opx = 5) (dw : Nat) (idx : Reg16) (v : Element)
    (u : State) : expectedStatus (decodeX dw ⟨opx, idx, v⟩) u = expectedStatus (.readAt idx) u := by
  rcases h with rfl | rfl <;> rfl

/-- With CREATE on port F, an indexed command on port X is checked against what CREATE left. -/
theorem cycle_create_indexed {s : State} (hp : s.inst.xport = true) (cap idx : Reg16) (v w : Element) {opx : Opcode}
    (hop : opx = 4 ∨ opx = 5) : ∃ u t, exec (.create cap) s = .next u ∧
      cycle (presentBoth ⟨1, cap, w⟩ ⟨opx, idx, v⟩) s = .next t ∧
      t.xRsp.status = (expectedStatus (.readAt idx) u).code := by
  obtain ⟨u, hu⟩ := exec_answers (.create cap) s
  obtain ⟨t, ht⟩ := exec_answers (decodeX s.inst.dw ⟨opx, idx, v⟩) u
  have hst := (exec_answers_expected ht).status
  rw [decodeX_port, expectedStatus_decodeX_indexed hop] at hst
  exact ⟨u, t, hu, cycle_presentBoth hp rfl hu ht, hst⟩

/-- Settles O43: port X's command runs in the state that port F's left, which holds F's store, still holds the slot that F
read, or is the new buffer. -/
theorem sameSlotSameCycle : Obligations.SameSlotSameCycle := by
  refine fun s hp hs => ⟨fun a v w hi hf => ?_, fun a v w old hi he hold => ?_, fun idx v w hi hr => ?_,
    fun idx v w old hi hr hold => ?_, fun cap idx v w opx hop => ?_⟩
  · obtain ⟨-, -, hwc, -⟩ := hs.1 hi
    obtain ⟨t, ht, hrsp, hst, hdata⟩ := exec_xReadAt_of_written (u := enqueueOk (v % 2 ^ s.inst.dw) s) hi hwc
      (Memory.read_write_same ..)
    exact ⟨t, cycle_presentBoth hp rfl (exec_enqueue_ok hi hf _) ht, hrsp ▸ rfl, hst, hdata⟩
  · obtain ⟨-, -, -, hrc, -⟩ := hs.1 hi
    obtain ⟨t, ht, hrsp, hst, hslot⟩ := exec_xWriteAt_stores (u := dequeueOk s) hi hrc (v % 2 ^ s.inst.dw)
    exact ⟨t, cycle_presentBoth hp rfl (exec_dequeue_ok hi he) ht, hrsp ▸ rfl, hrsp ▸ memRead_of_some hold, hst, hslot⟩
  · obtain ⟨t, ht, -, hst, hdata⟩ := exec_xReadAt_of_written (u := writeAtOk .f idx (v % 2 ^ s.inst.dw) s) hi hr
      (Memory.read_write_same ..)
    exact ⟨t, cycle_presentBoth hp rfl (exec_writeAt_ok (.inl rfl) hi hr) ht, hst, hdata⟩
  · obtain ⟨t, ht, hrsp, -, hslot⟩ := exec_xWriteAt_stores (u := respond .f .ok (memRead s idx) s) hi hr
      (v % 2 ^ s.inst.dw)
    exact ⟨t, cycle_presentBoth hp rfl (exec_readAt_ok (.inl rfl) hi hr) ht, hrsp ▸ memRead_of_some hold, hslot⟩
  · obtain ⟨u, t, hu, hc, hst⟩ := cycle_create_indexed hp cap idx v w hop
    refine ⟨t, hc, fun hbad => ?_, fun h0 hd hout => ?_, fun h0 hd hin => ?_⟩
    · rw [hst, exec_unique hu (exec_create_refused hbad)]
      rfl
    · rw [hst, exec_unique hu (exec_create_fits h0 hd)]
      simp [expectedStatus, hout]
    · rw [hst, exec_unique hu (exec_create_fits h0 hd)]
      simp [expectedStatus, Nat.not_le_of_lt hin]

/-! ## Starvation of port X (R110) -/

/-- The response pins show port F's response alone. -/
def ShowsOnlyF (s : State) : Prop := s.xRsp.valid = false ∧ s.fRsp.valid = true

theorem xReady_false_of_sameNeed {cf cx : Command} (hx : needX cx.op ≠ .none) (h : needF cf.op = needX cx.op) :
    xReady (presentBoth cf cx) = false := (xReady_false_iff _).mpr ⟨rfl, h.symm ▸ hx, h⟩

theorem acceptedX_of_stalled (c : Instance) {inp : CycleInput} (h : xReady inp = false) : acceptedX c inp = false := by
  simp [acceptedX, h]

theorem acceptedIn_of_stalled (c : Instance) {cf cx : Command} (h : xReady (presentBoth cf cx) = false) :
    acceptedIn c (presentBoth cf cx) = [decodeF c.dw cf] := by
  rw [acceptedIn, acceptedX_of_stalled c h]
  rfl

/-- In a cycle in which port X is stalled port F alone is answered. -/
theorem step_of_stalled {s : State} {cf cx : Command} {rest : List CycleInput} (hp : s.inst.xport = true)
    (hin : s.inputs = presentBoth cf cx :: rest) (hstall : xReady (presentBoth cf cx) = false) :
    ∃ t, step s = .next t ∧ t.inst = s.inst ∧ t.inputs = rest ∧ ShowsOnlyF t := by
  obtain ⟨u, hu, huinst, huin, -, huf⟩ := edgeF_answers (presentBoth cf cx) (s.setInputs rest)
  obtain ⟨t, ht, htinst, htin, htf, htx⟩ := edgeX_answers (presentBoth cf cx) u
  have hstep : step s = cycle (presentBoth cf cx) (s.setInputs rest) := by simp [step, currentInput, consumeInput, hin]
  have hinst : t.inst = s.inst := htinst.trans huinst
  refine ⟨t, hstep.trans (cycle_of_parts rfl hu ht), hinst, htin.trans huin, ?_, ?_⟩
  · rw [htx (huinst.symm ▸ hp), acceptedX_of_stalled _ hstall]
  · rw [htf, huf]
    rfl

theorem runCycles_succ {n : Nat} {s t : State} (h : step s = .next t) : runCycles (n + 1) s = runCycles n t := by
  rw [runCycles, h]
  rfl

section
variable {cx : Command} (hx : needX cx.op ≠ .none)
include hx

/-- After stalled cycles, and before them if there are none, the pins show port F's response alone. -/
theorem runCycles_of_stalled {cfs : List Command} {s : State} (hp : s.inst.xport = true)
    (hin : s.inputs = cfs.map fun cf => presentBoth cf cx) (hneed : ∀ cf ∈ cfs, needF cf.op = needX cx.op)
    (hs : cfs = [] → ShowsOnlyF s) : ∃ t, runCycles cfs.length s = .next t ∧ ShowsOnlyF t := by
  induction cfs generalizing s with
  | nil => exact ⟨s, rfl, hs rfl⟩
  | cons cf cfs ih =>
    obtain ⟨hcf, hcfs⟩ := List.forall_mem_cons.mp hneed
    obtain ⟨u, hu, hinst, hrest, hshow⟩ := step_of_stalled hp hin (xReady_false_of_sameNeed hx hcf)
    obtain ⟨t, ht, hshow'⟩ := ih (hinst ▸ hp) hrest hcfs fun _ => hshow
    exact ⟨t, (runCycles_succ hu).trans ht, hshow'⟩

theorem serialised_of_stalled (c : Instance) {cfs : List Command} (hneed : ∀ cf ∈ cfs, needF cf.op = needX cx.op) :
    serialised c (cfs.map fun cf => presentBoth cf cx) = cfs.map (decodeF c.dw) := by
  rw [serialised, List.flatMap_map, List.map_eq_flatMap]
  exact List.flatMap_congr fun cf hcf => acceptedIn_of_stalled c (xReady_false_of_sameNeed hx (hneed cf hcf))

end

/-- Settles O44: every stalled cycle shows port F's response alone, and port F's command is all it accepts. -/
theorem portXCanStarve : Obligations.PortXCanStarve := by
  intro s cfs cx hp hne hx hneed
  obtain ⟨t, ht, hxRsp, hfRsp⟩ := runCycles_of_stalled
    (s := s.setInputs (cfs.map fun cf => presentBoth cf cx)) hx hp rfl hneed fun h => absurd h hne
  exact ⟨t, ht, hxRsp, hfRsp, serialised_of_stalled hx s.inst hneed⟩

/-! ## Port F is untouched by port X (R111) -/

/-- Port X's part of an edge leaves port F's response, the registers, and every slot but the one an accepted command stores
to. -/
theorem edgeX_frame {inp : CycleInput} {u t : State} (h : edgeX inp u = .next t) :
    t.fRsp = u.fRsp ∧ SameRegisters u t ∧ ∀ a : Nat,
      (acceptedX u.inst inp = true → storeIndex (decodeX u.inst.dw inp.x.cmd) u ≠ some a) →
      t.storage.read a = u.storage.read a := by
  refine ⟨edgeX_fRsp h, ?_⟩
  rcases edgeX_cases inp u with ⟨ha, he⟩ | ⟨-, he⟩
  · obtain ⟨hregs, hslots⟩ := exec_x_frame (decodeX_port ..) (he.symm.trans h)
    exact ⟨hregs, fun a hne => hslots a (hne ha)⟩
  · obtain rfl : noResponseX u = t := next_injective (he.symm.trans h)
    exact ⟨noResponseX_sameRegisters u, fun _ _ => by simp⟩

theorem sameRegisters_of_common {u t t' : State} (h : SameRegisters u t) (h' : SameRegisters u t') :
    SameRegisters t t' := by
  obtain ⟨hi, hcap, hwc, hrc, hcount⟩ := h
  obtain ⟨hi', hcap', hwc', hrc', hcount'⟩ := h'
  exact ⟨hi'.trans hi.symm, hcap'.trans hcap.symm, hwc'.trans hwc.symm, hrc'.trans hrc.symm, hcount'.trans hcount.symm⟩

/-- Two cycles that differ in port X's pins leave one port F response, the same registers, and the same slots outside port X's
stores. -/
theorem cycle_frame_of_x_pins {s t t' : State} {inp : CycleInput} {x : PortPins} (h : cycle inp s = .next t)
    (h' : cycle { inp with x := x } s = .next t') : t'.fRsp = t.fRsp ∧ SameRegisters t t' ∧ ∀ a : Nat,
      (acceptedX s.inst inp = true → storeIndex (decodeX s.inst.dw inp.x.cmd) s ≠ some a) →
      (acceptedX s.inst { inp with x := x } = true → storeIndex (decodeX s.inst.dw x.cmd) s ≠ some a) →
      t'.storage.read a = t.storage.read a := by
  rcases cycle_cases h with ⟨hr, rfl⟩ | ⟨hr, u, hf, hx⟩
  · obtain rfl : resetEdge s = t' := next_injective ((cycle_of_rst (inp := { inp with x := x }) hr s).symm.trans h')
    exact ⟨rfl, ⟨rfl, rfl, rfl, rfl, rfl⟩, fun _ _ _ => rfl⟩
  · have hx' : edgeX { inp with x := x } u = .next t' := (cycle_of_edgeF (inp := { inp with x := x }) hr hf).symm.trans h'
    obtain ⟨hrsp, hregs, hslots⟩ := edgeX_frame hx
    obtain ⟨hrsp', hregs', hslots'⟩ := edgeX_frame hx'
    rw [edgeF_inst hf, storeIndex_decodeX _ _ u s] at hslots hslots'
    exact ⟨hrsp'.trans hrsp.symm, sameRegisters_of_common hregs hregs',
      fun a ha ha' => (hslots' a ha').trans (hslots a ha).symm⟩

/-- The same state with the parameter `XPORT = 0` (R9). -/
def withoutPortX (s : State) : State := { s with inst := { s.inst with xport := false } }

theorem respond_withoutPortX (p : Port) (st : Status) (d : Element) (s : State) :
    respond p st d (withoutPortX s) = withoutPortX (respond p st d s) := by cases p <;> rfl

theorem fail_withoutPortX (p : Port) (st : Status) (s : State) :
    fail p st (withoutPortX s) = withoutPortX (fail p st s) := respond_withoutPortX p st _ s

theorem ite_withoutPortX {b : Bool} {yes yes' no no' : State} (hyes : yes' = withoutPortX yes)
    (hno : no' = withoutPortX no) : (if b then yes' else no') = withoutPortX (if b then yes else no) := by
  rw [hyes, hno, apply_ite withoutPortX]

theorem ifInitialized_withoutPortX {p : Port} {s body body' : State} (h : body' = withoutPortX body) :
    ifInitialized p (withoutPortX s) body' = withoutPortX (ifInitialized p s body) :=
  ite_withoutPortX h (fail_withoutPortX ..)

theorem writeAtOn_withoutPortX (p : Port) (idx : Reg16) (v : Element) (s : State) :
    writeAtOn p idx v (withoutPortX s) = withoutPortX (writeAtOn p idx v s) :=
  ifInitialized_withoutPortX (ite_withoutPortX (respond_withoutPortX _ _ _ (memWrite s _ v)) (fail_withoutPortX ..))

theorem readAtOn_withoutPortX (p : Port) (idx : Reg16) (s : State) :
    readAtOn p idx (withoutPortX s) = withoutPortX (readAtOn p idx s) :=
  ifInitialized_withoutPortX (ite_withoutPortX (respond_withoutPortX ..) (fail_withoutPortX ..))

/-- No command's meaning looks at whether there is a port X (notes/assumptions/7.md). -/
theorem exec_withoutPortX (i : Instr) (s : State) :
    ∃ t, exec i s = .next t ∧ exec i (withoutPortX s) = .next (withoutPortX t) := by
  cases i with
  | create => exact ⟨_, rfl, congrArg Host.Outcome.next (ite_withoutPortX rfl rfl)⟩
  | enqueue | dequeue =>
    exact ⟨_, rfl, congrArg Host.Outcome.next (ifInitialized_withoutPortX (ite_withoutPortX rfl rfl))⟩
  | writeAt => exact ⟨_, rfl, congrArg Host.Outcome.next (writeAtOn_withoutPortX ..)⟩
  | xWriteAt => exact ⟨_, rfl, congrArg Host.Outcome.next (writeAtOn_withoutPortX ..)⟩
  | readAt => exact ⟨_, rfl, congrArg Host.Outcome.next (readAtOn_withoutPortX ..)⟩
  | xReadAt => exact ⟨_, rfl, congrArg Host.Outcome.next (readAtOn_withoutPortX ..)⟩
  | isEmpty | isFull => exact ⟨_, rfl, congrArg Host.Outcome.next (ifInitialized_withoutPortX rfl)⟩
  | nop | illegal | xNop | xIllegalCreate | xIllegalEnqueue | xIllegalDequeue | xIllegalIsEmpty | xIllegalIsFull
  | xIllegal => exact ⟨_, rfl, rfl⟩

theorem edgeF_withoutPortX (inp : CycleInput) (s : State) :
    ∃ u, edgeF inp s = .next u ∧ edgeF inp (withoutPortX s) = .next (withoutPortX u) := by
  rcases edgeF_cases inp s with ⟨ha, he⟩ | ⟨ha, he⟩
  · obtain ⟨u, hu, hu'⟩ := exec_withoutPortX (decodeF s.inst.dw inp.f.cmd) s
    exact ⟨u, he.trans hu, (edgeF_of_accepted ha _).trans hu'⟩
  · exact ⟨_, he, if_neg (by simp [ha])⟩

/-- With port X idle, what an edge leaves differs with the presence of port X in port X's response registers alone. -/
theorem cycle_withoutPortX {inp : CycleInput} (hv : inp.x.valid = false) (s : State) :
    ∃ u, cycle inp s = .next (noResponseX u) ∧
      cycle inp (withoutPortX s) = .next (noResponseX (withoutPortX u)) := by
  cases hr : inp.rst with
  | true => exact ⟨_, cycle_of_rst hr s, cycle_of_rst hr _⟩
  | false =>
    obtain ⟨u, hu, hu'⟩ := edgeF_withoutPortX inp s
    exact ⟨u, cycle_of_parts hr hu (edgeX_of_not_valid hv _), cycle_of_parts hr hu' (edgeX_of_not_valid hv _)⟩

theorem noResponseX_withoutPortX (u : State) : (noResponseX (withoutPortX u)).fRsp = (noResponseX u).fRsp ∧
    SameBuffer (noResponseX u) (noResponseX (withoutPortX u)) := by
  refine ⟨?_, ⟨?_, ?_⟩⟩
  · simp [withoutPortX]
  · constructor <;> simp [withoutPortX]
  · simp [withoutPortX]

/-- Settles O45: port F's part of the edge comes first and looks neither at port X's pins nor at whether there is a port X; port
X's part leaves alone what the statement names. -/
theorem portFIsNotAlteredByPortX : Obligations.PortFIsNotAlteredByPortX := by
  refine ⟨fun s t t' inp x h h' => ⟨rfl, cycle_frame_of_x_pins h h'⟩, fun s t t' inp hv h h' => ?_⟩
  obtain ⟨u, hu, hu'⟩ := cycle_withoutPortX hv s
  obtain rfl : noResponseX u = t := next_injective (hu.symm.trans h)
  obtain rfl : noResponseX (withoutPortX u) = t' := next_injective (hu'.symm.trans h')
  exact noResponseX_withoutPortX u

end Sys2Proof.Machine
end

section
/-!
SUPPORT and proofs for spec/60_exceptions.md. The status codes (R115); the causes of each status (R116, R119); no partial mutation
(R120).
-/
namespace Sys2Proof.Machine

/-! ## The causes of each status (R116, R119) -/

/-- Settles O49: each way a command can end carries the status its causes give it. -/
theorem statusCauses : Obligations.StatusCauses := fun _ _ _ => exec_answers_expected

/-! ## The status codes (R115) -/

/-- The reserved code 7 is the code of no status. -/
theorem Status.code_ne_seven (st : Status) : st.code ≠ 7 := fun h => absurd (h ▸ st.code_le) (by decide)

/-- Settles O47: a command answers with the code of a status, and 7 is the code of none. -/
theorem statusCodes : Obligations.StatusCodes :=
  ⟨rfl, rfl, rfl, rfl, rfl, rfl, rfl,
    fun i s _ h => (exec_answers_expected h).status ▸ (expectedStatus i s).code_ne_seven⟩

/-! ## No partial mutation (R120) -/

/-- A command whose answer is not `OK` has a cause of R116 for an error. -/
theorem expectedStatus_ne_ok {i : Instr} {s t : State} (h : exec i s = .next t)
    (herr : (t.rsp i.port).status ≠ Status.code .ok) : expectedStatus i s ≠ .ok :=
  fun hok => herr ((exec_answers_expected h).status.trans (congrArg Status.code hok))

/-- A command other than CREATE whose answer is not `OK` fails as R118 has it. -/
theorem failsWith_of_status_ne_ok {i : Instr} {s t : State} (h : exec i s = .next t)
    (herr : (t.rsp i.port).status ≠ Status.code .ok) (hnc : isCreate i = false) :
    FailsWith i.port (expectedStatus i s) s t := by
  obtain ⟨u, hu, hfails⟩ := exec_failsWith rfl (expectedStatus_ne_ok h herr) hnc
  exact exec_unique h hu ▸ hfails

theorem eq_create_of_isCreate {i : Instr} (hc : isCreate i = true) : ∃ cap : Reg16, i = .create cap := by
  cases i with
  | create cap => exact ⟨cap, rfl⟩
  | _ => cases hc

/-- A CREATE whose answer is not `OK` leaves the canonical uninitialized state behind its response (R72). -/
theorem eq_uninitialize_of_create_status_ne_ok {cap : Reg16} {s t : State} (h : exec (.create cap) s = .next t)
    (herr : t.fRsp.status ≠ Status.code .ok) : t = fail .f .allocationFailed s.uninitialize := by
  obtain ⟨-, rfl⟩ | ⟨-, ht⟩ := exec_create.mp h
  · exact absurd rfl herr
  · exact ht

/-- Settles O50: an error other than CREATE's changes the response alone, and a refused CREATE uninitializes. -/
theorem failureChangesNothing : Obligations.FailureChangesNothing := by
  refine fun i s t h herr => ⟨fun hnc => ?_, fun hc => ?_⟩
  · have hfails := failsWith_of_status_ne_ok h herr hnc
    exact ⟨hfails.registers, hfails.storage⟩
  · obtain ⟨cap, rfl⟩ := eq_create_of_isCreate hc
    rw [eq_uninitialize_of_create_status_ne_ok h herr]
    exact ⟨rfl, rfl, rfl, rfl, rfl⟩

end Sys2Proof.Machine
end

section
/-!
SUPPORT and proofs for spec/70_reset_and_hazards.md. The cycle function (R137); the reset edge (R132); the idle cycle (R136); the
response one cycle after acceptance (R138).
-/
namespace Sys2Proof.Machine

/-! ## The cycle function (R137) -/

/-- What port F's part of an edge leaves, told by acceptance. -/
theorem edgeF_eq_next_iff {inp : CycleInput} {s u : State} : edgeF inp s = .next u ↔
    (acceptedF inp = true → exec (decodeF s.inst.dw inp.f.cmd) s = .next u) ∧
    (acceptedF inp = false → u = noResponse .f s) := by
  rcases edgeF_cases inp s with ⟨ha, he⟩ | ⟨ha, he⟩ <;> simp [ha, he, eq_comm]

/-- What port X's part of an edge leaves, told by acceptance. -/
theorem edgeX_eq_next_iff {inp : CycleInput} {u t : State} : edgeX inp u = .next t ↔
    (acceptedX u.inst inp = true → exec (decodeX u.inst.dw inp.x.cmd) u = .next t) ∧
    (acceptedX u.inst inp = false → t = noResponseX u) := by
  rcases edgeX_cases inp u with ⟨ha, he⟩ | ⟨ha, he⟩ <;> simp [ha, he, eq_comm]

@[simp] theorem resetEdge_initialized (s : State) : (resetEdge s).initialized = false := by simp [resetEdge]
@[simp] theorem resetEdge_writeCursor (s : State) : (resetEdge s).writeCursor = 0 := by simp [resetEdge]
@[simp] theorem resetEdge_readCursor (s : State) : (resetEdge s).readCursor = 0 := by simp [resetEdge]
@[simp] theorem resetEdge_storage (s : State) : (resetEdge s).storage = [] := by simp [resetEdge]
@[simp] theorem resetEdge_inputs (s : State) : (resetEdge s).inputs = s.inputs := by simp [resetEdge]

theorem resetEdge_read (s : State) (i : Nat) : (resetEdge s).storage.read i = none := by rw [resetEdge_storage]; rfl

/-- Settles O7: `cycle` is the reset edge, or the two parts of an edge one after the other. -/
theorem cycleFunction : Obligations.CycleFunction := by
  refine fun s inp => ⟨fun hr => ?_, fun hr s₁ s₂ hf hf' hx hx' => ?_⟩
  · exact ⟨resetEdge s, cycle_of_rst hr s, resetEdge_initialized s, resetEdge_capacity s, resetEdge_writeCursor s,
      resetEdge_readCursor s, resetEdge_count s, resetEdge_read s, resetEdge_fRsp_valid s, resetEdge_xRsp_valid⟩
  · exact cycle_of_parts hr (edgeF_eq_next_iff.mpr ⟨hf, hf'⟩) (edgeX_eq_next_iff.mpr ⟨hx, hx'⟩)

/-! ## The reset edge (R132) -/

/-- A step samples the head of the schedule and leaves the rest of it. -/
theorem step_of_inputs {s : State} {inp : CycleInput} {rest : List CycleInput} (hin : s.inputs = inp :: rest) :
    step s = cycle inp (s.setInputs rest) := by simp [step, currentInput, consumeInput, hin]

/-- Settles O11: the step is the reset edge, and an uninitialized controller has its pins at 0. -/
theorem resetEdgeWins : Obligations.ResetEdgeWins := by
  intro s inp rest hin hr
  obtain ⟨hpinI, hpinE, hpinF⟩ := pins_of_uninitialized (resetEdge_initialized (s.setInputs rest))
  exact ⟨resetEdge (s.setInputs rest), (step_of_inputs hin).trans (cycle_of_rst hr _), resetEdge_initialized _,
    resetEdge_capacity _, resetEdge_writeCursor _, resetEdge_readCursor _, resetEdge_count _, resetEdge_read _,
    resetEdge_fRsp_valid _, resetEdge_xRsp_valid (s := s.setInputs rest), hpinI, hpinE, hpinF, resetEdge_inst _,
    resetEdge_inputs _⟩

/-! ## The idle cycle (R136) -/

/-- Where nothing is accepted a cycle withdraws both responses, and that is all. -/
theorem cycle_of_idle {inp : CycleInput} {s : State} (hr : inp.rst = false) (hf : acceptedF inp = false)
    (hx : acceptedX s.inst inp = false) : cycle inp s = .next (noResponseX (noResponse .f s)) :=
  cycle_of_parts hr (edgeF_eq_next_iff.mpr ⟨by simp [hf], fun _ => rfl⟩) (edgeX_of_not_accepted (by simpa using hx))

theorem noResponses_sameBuffer (s : State) (is : List CycleInput) :
    SameBuffer s (noResponseX (noResponse .f (s.setInputs is))) := ⟨by constructor <;> simp, by simp⟩

/-- Settles O51: both responses are withdrawn and the buffer is the same. -/
theorem idleCycleChangesNothing : Obligations.IdleCycleChangesNothing := by
  intro s inp rest hin hr hf hx
  obtain ⟨hregs, hstorage⟩ := noResponses_sameBuffer s rest
  exact ⟨_, (step_of_inputs hin).trans (cycle_of_idle hr hf hx), hregs, fun i => by rw [hstorage], by simp,
    fun hp => (noResponseX_xRsp _).1 (by simpa using hp)⟩

/-! ## The response one cycle after acceptance (R138) -/

@[simp] theorem consumeInput_inst (s : State) : (consumeInput s).inst = s.inst := rfl

theorem acceptedF_of_rst {inp : CycleInput} (h : inp.rst = true) : acceptedF inp = false := by simp [acceptedF, h]

theorem acceptedX_of_rst (c : Instance) {inp : CycleInput} (h : inp.rst = true) : acceptedX c inp = false := by
  simp [acceptedX, h]

/-- Port F shows a response after its part of an edge exactly where a command was accepted on it. -/
theorem edgeF_fRsp_valid {inp : CycleInput} {s u : State} (h : edgeF inp s = .next u) : u.fRsp.valid = acceptedF inp := by
  obtain ⟨u', hu', -, -, -, hvalid⟩ := edgeF_answers inp s
  exact next_injective (h.symm.trans hu') ▸ hvalid

/-- Port X shows a response after its part of an edge exactly where a command was accepted on it. -/
theorem edgeX_xRsp_valid {inp : CycleInput} {u t : State} (h : edgeX inp u = .next t) (hp : u.inst.xport = true) :
    t.xRsp.valid = acceptedX u.inst inp := by
  obtain ⟨t', ht', -, -, -, hvalid⟩ := edgeX_answers inp u
  exact next_injective (h.symm.trans ht') ▸ hvalid hp

/-- Settles O52: a reset edge accepts nothing and shows nothing; otherwise each port's part of the edge shows its response. -/
theorem responseAfterOneCycle : Obligations.ResponseAfterOneCycle := by
  intro s t h
  rcases cycle_cases h with ⟨hr, rfl⟩ | ⟨-, u, hf, hx⟩
  · rw [acceptedF_of_rst hr, acceptedX_of_rst _ hr]
    exact ⟨resetEdge_fRsp_valid _, nofun, resetEdge_xRsp_valid (s := consumeInput s), nofun⟩
  · have hinst : u.inst = s.inst := (edgeF_inst hf).trans (consumeInput_inst s)
    have hrsp : t.fRsp = u.fRsp := edgeX_fRsp hx
    rw [← hinst]
    refine ⟨hrsp ▸ edgeF_fRsp_valid hf, fun ha => ⟨u, ?_, hrsp⟩, edgeX_xRsp_valid hx, fun ha => ⟨u, hf, ?_⟩⟩
    · exact hinst ▸ (edgeF_eq_next_iff.mp hf).1 ha
    · exact (edgeX_eq_next_iff.mp hx).1 ha

end Sys2Proof.Machine
end

section
/-!
Proofs for spec/30_encoding.md: the encoder and the decoder are inverse to each other on the fields a command uses (R56 to R62,
R70); the words the spec writes out.
-/
namespace Sys2Proof

/-! ## From a command to its word and back -/

/-- The fields the encoder gives a well-formed command are those the decoder reads the command from. -/
theorem decodeCommand_encodeCommand {dw : Nat} {i : Instr} (h : i.wellFormed dw = true) :
    decodeCommand i.port dw (encodeCommand i) = i := by
  cases i with
  | nop => exact Laws.FieldsReadBack.nop dw h
  | create cap => exact Laws.FieldsReadBack.create cap dw h
  | enqueue v => exact Laws.FieldsReadBack.enqueue v dw h
  | dequeue => exact Laws.FieldsReadBack.dequeue dw h
  | writeAt idx v => exact Laws.FieldsReadBack.writeAt idx v dw h
  | readAt idx => exact Laws.FieldsReadBack.readAt idx dw h
  | isEmpty => exact Laws.FieldsReadBack.isEmpty dw h
  | isFull => exact Laws.FieldsReadBack.isFull dw h
  | illegal op => exact Laws.FieldsReadBack.illegal op dw h
  | xNop => exact Laws.FieldsReadBack.xNop dw h
  | xWriteAt idx v => exact Laws.FieldsReadBack.xWriteAt idx v dw h
  | xReadAt idx => exact Laws.FieldsReadBack.xReadAt idx dw h
  | xIllegalCreate => exact Laws.FieldsReadBack.xIllegalCreate dw h
  | xIllegalEnqueue => exact Laws.FieldsReadBack.xIllegalEnqueue dw h
  | xIllegalDequeue => exact Laws.FieldsReadBack.xIllegalDequeue dw h
  | xIllegalIsEmpty => exact Laws.FieldsReadBack.xIllegalIsEmpty dw h
  | xIllegalIsFull => exact Laws.FieldsReadBack.xIllegalIsFull dw h
  | xIllegal op => exact Laws.FieldsReadBack.xIllegal op dw h

/-- A word made of three fields decodes as the fields do. -/
theorem decodeCommand_commandOfWord (p : Port) (dw : Nat) (c : Command) :
    decodeCommand p dw (commandOfWord dw (wordOfCommand dw c)) = decodeCommand p dw c :=
  decodeCommand_congr (commandOfWord_op dw c) (fun _ => commandOfWord_arg dw c)
    fun _ => by rw [commandOfWord_wdata, Nat.mod_mod]

/-- Settles O1: the word fits the format, its fields decode as the encoder's do, and those give the command back. -/
theorem decodeOfEncodeIsTheCommand : Obligations.DecodeOfEncodeIsTheCommand := by
  intro dw i h
  rw [decode, encode, if_pos (wordOfCommand_lt dw _), decodeCommand_commandOfWord, decodeCommand_encodeCommand h]

/-! ## From a word to its command and back -/

/-- Encoding a decoded command gives its fields back, with 0 for the ignored ones. -/
theorem encodeCommand_decodeCommand (p : Port) (dw : Nat) (c : Command) :
    encodeCommand (decodeCommand p dw c) = usedFields p dw c := by
  obtain ⟨op, arg, wdata⟩ := c
  cases p with
  | f =>
    simp only [decodeCommand, decodeF, usedFields, usesArg_f_iff, usesWdata_f_iff]
    split <;> simp_all [encodeCommand, BitVec.toNat_eq]
  | x =>
    simp only [decodeCommand, decodeX, usedFields, usesArg_x_iff, usesWdata_x_iff]
    split <;> simp_all [encodeCommand, BitVec.toNat_eq]

theorem decodeCommand_port (p : Port) (dw : Nat) (c : Command) : (decodeCommand p dw c).port = p := by
  cases p with
  | f => exact Machine.decodeF_port dw c
  | x => exact Machine.decodeX_port dw c

theorem elementFits_mod_two_pow (dw : Nat) (v : Element) : elementFits dw (v % 2 ^ dw) = true :=
  decide_eq_true (Nat.mod_lt v (Nat.two_pow_pos dw))

/-- An opcode that is none of the eight commands' is reserved (R61). -/
theorem reservedOpcode_of_ne {op : Opcode} (h0 : op.toNat ≠ 0) (h1 : op.toNat ≠ 1) (h2 : op.toNat ≠ 2)
    (h3 : op.toNat ≠ 3) (h4 : op.toNat ≠ 4) (h5 : op.toNat ≠ 5) (h6 : op.toNat ≠ 6) (h7 : op.toNat ≠ 7) :
    reservedOpcode op = true := decide_eq_true (by omega)

/-- The decoder cuts an element operand to `dw` bits, and reads an illegal command from a reserved opcode alone. -/
theorem decodeCommand_wellFormed (p : Port) (dw : Nat) (c : Command) : (decodeCommand p dw c).wellFormed dw = true := by
  cases p with
  | f =>
    rw [decodeCommand, decodeF]
    split
    case h_3 | h_5 => exact elementFits_mod_two_pow dw c.wdata
    case h_9 h0 h1 h2 h3 h4 h5 h6 h7 => exact reservedOpcode_of_ne h0 h1 h2 h3 h4 h5 h6 h7
    all_goals rfl
  | x =>
    rw [decodeCommand, decodeX]
    split
    case h_5 => exact elementFits_mod_two_pow dw c.wdata
    case h_9 h0 h1 h2 h3 h4 h5 h6 h7 => exact reservedOpcode_of_ne h0 h1 h2 h3 h4 h5 h6 h7
    all_goals rfl

theorem decode_eq_ok {p : Port} {dw w : Nat} {i : Instr} (h : decode p dw w = .ok i) :
    i = decodeCommand p dw (commandOfWord dw w) := by
  rw [decode] at h
  split at h
  · exact (Except.ok.inj h).symm
  · cases h

/-- The `wdata` field of a word has `dw` bits. -/
theorem commandOfWord_wdata_mod (dw w : Nat) : (commandOfWord dw w).wdata % 2 ^ dw = (commandOfWord dw w).wdata :=
  Nat.mod_mod w (2 ^ dw)

/-- Settles O2: a decoded command is well formed, and encoding it gives the used fields. -/
theorem encodeOfDecodeKeepsUsedFields : Obligations.EncodeOfDecodeKeepsUsedFields := by
  intro p dw w i h
  obtain rfl := decode_eq_ok h
  rw [encodeCommand_decodeCommand, usedFields, commandOfWord_wdata_mod]
  exact ⟨decodeCommand_wellFormed p dw _, decodeCommand_port p dw _, rfl, rfl, rfl⟩

/-! ## Words written out in the spec -/

/-- Settles O3: each word is read by evaluating the decoder. -/
theorem specWordsDecode : Obligations.SpecWordsDecode :=
  ⟨rfl, rfl, rfl, rfl, rfl, rfl, rfl, rfl, rfl, rfl, rfl, rfl, rfl, rfl⟩

end Sys2Proof
end

section
/-!
Proofs for the state invariant (spec/10_state.md sections 5 and 8, spec/20_memory.md section 1): every part of `StateInv` is kept by
every well-formed command, so by every edge and every step, and holds at reset.
-/
namespace Sys2Proof.Machine

/-! ## Storage (R19, R38, R39) -/

/-- The storage invariant speaks of the storage, `capacity` and the parameters alone. -/
theorem StorageInv.of_eq {s t : State} (h : StorageInv s) (hmem : t.storage = s.storage) (hcap : t.capacity = s.capacity)
    (hinst : t.inst = s.inst) : StorageInv t := by simpa only [StorageInv, hmem, hcap, hinst] using h

theorem storageInv_of_nil {s : State} (h : s.storage = []) : StorageInv s := by simp [StorageInv, h]

theorem StorageInv.after_memWrite {s : State} (h : StorageInv s) {idx : Reg16} {v : Element}
    (hr : idx.toNat < s.capacity.toNat) (hv : elementFits s.inst.dw v = true) : StorageInv (memWrite s idx v) := by
  obtain ⟨hwf, hall⟩ := h
  refine ⟨Memory.wf_write hwf _ _, fun c hc => ?_⟩
  rcases Memory.mem_write hc with rfl | hc
  · exact ⟨hr, of_decide_eq_true hv⟩
  · exact hall c hc

theorem wellFormed_stored {dw : Nat} {i : Instr} {idx : Reg16} {v : Element} (hw : i = .writeAt idx v ∨ i = .xWriteAt idx v)
    (hwf : i.wellFormed dw = true) : elementFits dw v = true := by rcases hw with rfl | rfl <;> exact hwf

theorem StorageInv.after_exec {i : Instr} {s t : State} (h : StorageInv s) (hb : BufferInv s)
    (hwf : i.wellFormed s.inst.dw = true) (he : exec i s = .next t) : StorageInv t := by
  cases exec_ends he with
  | failed | answered => exact h.of_eq (respond_storage ..) (respond_capacity ..) (respond_inst ..)
  | pushed v hi =>
    obtain ⟨-, -, hwc, -⟩ := hb.1 hi
    exact (h.after_memWrite hwc hwf).of_eq rfl rfl rfl
  | popped => exact h.of_eq rfl rfl rfl
  | stored idx v _ hr hw =>
    exact (h.after_memWrite hr (wellFormed_stored hw hwf)).of_eq (respond_storage ..) (respond_capacity ..) (respond_inst ..)
  | created | refused => exact storageInv_of_nil rfl

/-! ## Occupied slots (R26, R135) -/

/-- Every occupied slot has been written where the queue holds no slot without a value. -/
theorem occupiedInv_iff_queue (s : State) : OccupiedInv s ↔ ∀ o ∈ queue s, o.isSome = true := by
  simp [OccupiedInv, queue]

theorem OccupiedInv.of_queue_eq {s t : State} (h : OccupiedInv s) (hq : queue t = queue s) : OccupiedInv t := by
  rw [occupiedInv_iff_queue] at h ⊢
  rwa [hq]

theorem OccupiedInv.after_memWrite {s : State} (h : OccupiedInv s) (hb : BufferInv s) (hi : s.initialized = true)
    {idx : Reg16} (hr : idx.toNat < s.capacity.toNat) (v : Element) : OccupiedInv (memWrite s idx v) := by
  rw [occupiedInv_iff_queue] at h ⊢
  rw [queue_memWrite hb hi hr v]
  intro o ho
  rcases List.mem_or_eq_of_mem_set ho with ho | rfl
  · exact h o ho
  · rfl

theorem OccupiedInv.after_pushElement {s : State} (h : OccupiedInv s) (hb : BufferInv s) (hi : s.initialized = true)
    (hf : isFull s = false) (v : Element) : OccupiedInv (pushElement v s) := by
  rw [occupiedInv_iff_queue] at h ⊢
  rw [queue_pushElement hb hi hf v, List.forall_mem_append]
  exact ⟨h, by simp⟩

theorem OccupiedInv.after_popElement {s : State} (h : OccupiedInv s) (hb : BufferInv s) (hi : s.initialized = true)
    (he : isEmpty s = false) : OccupiedInv (popElement s) := by
  rw [occupiedInv_iff_queue] at h ⊢
  rw [queue_popElement hb hi he] at h
  exact (List.forall_mem_cons.mp h).2

theorem occupiedInv_of_count_zero {s : State} (h : s.count = 0) : OccupiedInv s := by simp [OccupiedInv, h]

theorem OccupiedInv.after_exec {i : Instr} {s t : State} (h : OccupiedInv s) (hb : BufferInv s)
    (he : exec i s = .next t) : OccupiedInv t := by
  cases exec_ends he with
  | failed | answered => exact h.of_queue_eq (queue_respond ..)
  | pushed v hi hf => exact (h.after_pushElement hb hi hf v).of_queue_eq (queue_respond ..)
  | popped hi hempty => exact (h.after_popElement hb hi hempty).of_queue_eq (queue_respond ..)
  | stored idx v hi hr => exact (h.after_memWrite hb hi hr v).of_queue_eq (queue_respond ..)
  | created | refused => exact occupiedInv_of_count_zero rfl

/-! ## Response registers (R29, R102, R115) -/

theorem ResponseInv.of_eq {s t : State} (h : ResponseInv s) (hinst : t.inst = s.inst) (hf : t.fRsp = s.fRsp)
    (hx : t.xRsp = s.xRsp) : ResponseInv t := by simpa only [ResponseInv, hinst, hf, hx] using h

/-- Loading a port's response registers; port X's only where there is such a port, or with no response. -/
theorem ResponseInv.after_setRsp {s : State} (h : ResponseInv s) {p : Port} {r : Response} (hr : ResponseOk s.inst.dw r)
    (hx : p = .x → s.inst.xport = false → r.valid = false) : ResponseInv (s.setRsp p r) := by
  obtain ⟨hfOk, hxOk, habsent⟩ := h
  cases p with
  | f => exact ⟨hr, hxOk, habsent⟩
  | x => exact ⟨hfOk, hr, hx rfl⟩

theorem ResponseInv.after_respond {s : State} (h : ResponseInv s) {p : Port} (hp : p = .x → s.inst.xport = true)
    (st : Status) {d : Element} (hd : d < 2 ^ s.inst.dw) : ResponseInv (respond p st d s) :=
  (h.after_setRsp ⟨hd, fun _ => st.code_le⟩ fun hpx habsent => absurd ((hp hpx).symm.trans habsent) (by decide)).of_eq
    rfl rfl rfl

theorem ResponseInv.after_respondNoData {s : State} (h : ResponseInv s) {p : Port} (hp : p = .x → s.inst.xport = true)
    (st : Status) : ResponseInv (respondNoData p st s) := h.after_respond hp st (unspecifiedData_lt s)

theorem ResponseInv.after_noResponse {s : State} (h : ResponseInv s) (p : Port) : ResponseInv (noResponse p s) :=
  (h.after_setRsp (r := ⟨false, Config.freeStatus s.draws, unspecifiedData s⟩) ⟨unspecifiedData_lt s, nofun⟩
    fun _ _ => rfl).of_eq rfl rfl rfl

theorem ResponseInv.after_exec {i : Instr} {s t : State} (h : ResponseInv s) (hc : s.inst.Wf) (hs : StorageInv s)
    (hp : i.port = .x → s.inst.xport = true) (he : exec i s = .next t) : ResponseInv t := by
  have hwidth : ∀ c ∈ s.storage, c.2 < 2 ^ s.inst.dw := fun c hmem => (hs.2 c hmem).2
  cases exec_ends he with
  | failed st => exact h.after_respondNoData hp st
  | answered d _ _ _ _ _ hd =>
    obtain ⟨hew, -⟩ := hc
    exact h.after_respond hp _ (hd (Nat.mul_pos (by decide) hew) hwidth)
  | pushed v => exact (h.of_eq (t := pushElement v s) rfl rfl rfl).after_respondNoData (p := .f) nofun _
  | popped => exact (h.of_eq (t := popElement s) rfl rfl rfl).after_respond (p := .f) nofun _ (memRead_lt hwidth _)
  | stored idx v => exact (h.of_eq (t := memWrite s _ v) rfl rfl rfl).after_respondNoData hp _
  | created cap => exact (h.of_eq (t := s.newBuffer true cap) rfl rfl rfl).after_respondNoData (p := .f) nofun _
  | refused => exact (h.of_eq (t := s.uninitialize) rfl rfl rfl).after_respondNoData (p := .f) nofun _

/-! ## The whole invariant -/

/-- A well-formed command keeps the invariant; one of port X is asked about only where there is such a port. -/
theorem StateInv.after_exec {i : Instr} {s t : State} (h : StateInv s) (hwf : i.wellFormed s.inst.dw = true)
    (hp : i.port = .x → s.inst.xport = true) (he : exec i s = .next t) : StateInv t := by
  obtain ⟨hc, hb, hs, ho, hr⟩ := h
  obtain ⟨hinst, -⟩ := exec_keeps he
  exact ⟨hinst ▸ hc, hb.after_exec he, hs.after_exec hb hwf he, ho.after_exec hb he, hr.after_exec hc hs hp he⟩

theorem StateInv.after_noResponse {s : State} (h : StateInv s) (p : Port) : StateInv (noResponse p s) := by
  obtain ⟨hc, hb, hs, ho, hr⟩ := h
  exact ⟨noResponse_inst p s ▸ hc, hb.after_noResponse p,
    hs.of_eq (noResponse_storage ..) (noResponse_capacity ..) (noResponse_inst ..),
    ho.of_queue_eq (by simp [queue]), hr.after_noResponse p⟩

theorem StateInv.after_noResponseX {s : State} (h : StateInv s) : StateInv (noResponseX s) := by
  rw [noResponseX]
  split
  · exact h.after_noResponse .x
  · exact h

theorem StateInv.after_uninitialize {s : State} (h : StateInv s) : StateInv s.uninitialize := by
  obtain ⟨hc, -, -, -, hr⟩ := h
  exact ⟨hc, uninitialize_bufferInv s, storageInv_of_nil rfl, occupiedInv_of_count_zero rfl, hr.of_eq rfl rfl rfl⟩

theorem StateInv.after_resetEdge {s : State} (h : StateInv s) : StateInv (resetEdge s) :=
  (h.after_uninitialize.after_noResponse .f).after_noResponseX

/-- What the decoder reads from the pins is well formed, whatever they carry. -/
theorem StateInv.after_edgeF {inp : CycleInput} {s u : State} (h : StateInv s) (he : edgeF inp s = .next u) :
    StateInv u := by
  obtain ⟨hexec, hidle⟩ := edgeF_eq_next_iff.mp he
  cases ha : acceptedF inp with
  | true =>
    exact h.after_exec (decodeCommand_wellFormed .f s.inst.dw inp.f.cmd)
      (fun hx => nomatch (decodeCommand_port .f ..).symm.trans hx) (hexec ha)
  | false => exact hidle ha ▸ h.after_noResponse .f

/-- A command is accepted on port X only where there is such a port. -/
theorem StateInv.after_edgeX {inp : CycleInput} {u t : State} (h : StateInv u) (he : edgeX inp u = .next t) :
    StateInv t := by
  obtain ⟨hexec, hidle⟩ := edgeX_eq_next_iff.mp he
  cases ha : acceptedX u.inst inp with
  | true =>
    exact h.after_exec (decodeCommand_wellFormed .x u.inst.dw inp.x.cmd) (fun _ => ((acceptedX_iff _ _).mp ha).1)
      (hexec ha)
  | false => exact hidle ha ▸ h.after_noResponseX

theorem StateInv.after_cycle {inp : CycleInput} {s t : State} (h : StateInv s) (hc : cycle inp s = .next t) :
    StateInv t := by
  rcases cycle_cases hc with ⟨-, rfl⟩ | ⟨-, u, hf, hx⟩
  · exact h.after_resetEdge
  · exact (h.after_edgeF hf).after_edgeX hx

/-- Settles O13: sampling the inputs touches nothing the invariant speaks of, and the cycle keeps it part by part. -/
theorem stepKeepsTheInvariant : Obligations.StepKeepsTheInvariant := fun s _ h hstep =>
  StateInv.after_cycle (s := consumeInput s) h hstep

theorem resetOf_stateInv {c : Instance} (hc : c.Wf) : StateInv (State.resetOf c) :=
  have hrsp : ResponseOk c.dw Response.atReset := ⟨Nat.two_pow_pos _, nofun⟩
  ⟨hc, resetOf_bufferInv c, storageInv_of_nil rfl, occupiedInv_of_count_zero rfl, hrsp, hrsp, fun _ => rfl⟩

/-- Settles O12: nothing is stored, counted or shown at reset, and the parameters of R7 to R9 are legal ones. -/
theorem resetMeetsTheInvariant : Obligations.ResetMeetsTheInvariant :=
  ⟨fun _ => resetOf_stateInv, resetOf_stateInv (by decide)⟩

end Sys2Proof.Machine
end

section
/-!
Proofs for spec/10_state.md section 9: what each command writes and what it leaves alone (R33), and who writes `initialized` and
`capacity` (R14, R15, R151).
-/
namespace Sys2Proof.Machine

/-! ## The frame of every command (R33) -/

section
variable {i : Instr} {s t : State} (h : exec i s = .next t) (hc : isCreate i = false)
include h hc

theorem exec_keeps_control : t.initialized = s.initialized ∧ t.capacity = s.capacity := by
  cases exec_ends h with
  | failed | answered | stored => simp
  | pushed | popped => exact ⟨rfl, rfl⟩
  | created | refused => cases hc

theorem exec_keeps_writeCursor (hne : ∀ v : Element, i ≠ .enqueue v) : t.writeCursor = s.writeCursor := by
  cases exec_ends h with
  | failed | answered | stored => simp
  | pushed v => exact absurd rfl (hne v)
  | popped => rfl
  | created | refused => cases hc

theorem exec_keeps_readCursor (hnd : i ≠ .dequeue) : t.readCursor = s.readCursor := by
  cases exec_ends h with
  | failed | answered | stored => simp
  | pushed => rfl
  | popped => exact absurd rfl hnd
  | created | refused => cases hc

theorem exec_keeps_count (hne : ∀ v : Element, i ≠ .enqueue v) (hnd : i ≠ .dequeue) : t.count = s.count :=
  count_unchanged h hc (fun ⟨⟨v, hv⟩, _⟩ => hne v hv) fun ⟨hd, _⟩ => hnd hd

/-- A command that stores writes the slot its effective index names (R150), every other one none. -/
theorem exec_keeps_slot {a : Nat} (ha : storeIndex i s ≠ some a) : t.storage.read a = s.storage.read a := by
  cases exec_ends h with
  | failed | answered => simp
  | pushed v => exact Memory.read_write_other _ v fun heq => ha (heq ▸ rfl)
  | popped => rfl
  | stored idx v _ _ hw =>
    have hidx : storeIndex i s = some (absoluteIndex idx).toNat := by rcases hw with rfl | rfl <;> rfl
    have hne : a ≠ (absoluteIndex idx).toNat := fun heq => ha (heq ▸ hidx)
    simp [Memory.read_write_other _ v hne]
  | created | refused => cases hc

end

/-- Settles O17: one frame lemma for each part of the state, by the ways a command can end. -/
theorem frameOfEveryCommand : Obligations.FrameOfEveryCommand := by
  intro i s t h
  obtain ⟨hinst, hinputs, hother, -⟩ := exec_keeps h
  exact ⟨exec_keeps_control h, exec_keeps_writeCursor h, exec_keeps_readCursor h, exec_keeps_count h,
    fun hc _ => exec_keeps_slot h hc, hother, hinst, hinputs⟩

/-! ## Who writes `initialized` and `capacity` (R14, R15, R151) -/

theorem isCreate_decodeF (dw : Nat) {c : Command} (h : c.op ≠ 1) : isCreate (decodeF dw c) = false := by
  unfold decodeF
  split
  case h_2 hop => exact absurd (BitVec.eq_of_toNat_eq hop) h
  all_goals rfl

theorem edgeF_keeps_control {inp : CycleInput} {s u : State} (h : edgeF inp s = .next u)
    (hnc : ¬(inp.f.valid = true ∧ inp.f.cmd.op = 1)) : u.initialized = s.initialized ∧ u.capacity = s.capacity := by
  obtain ⟨hexec, hidle⟩ := edgeF_eq_next_iff.mp h
  cases ha : acceptedF inp with
  | true =>
    obtain ⟨-, hv⟩ := (acceptedF_iff inp).mp ha
    exact exec_keeps_control (hexec ha) (isCreate_decodeF s.inst.dw fun hop => hnc ⟨hv, hop⟩)
  | false => simp [hidle ha]

/-- Settles O18: port F's part of the edge writes them by CREATE alone, port X's writes no register. -/
theorem onlyCreateAndResetWriteControl : Obligations.OnlyCreateAndResetWriteControl := by
  intro s t inp h hr hnc
  rcases cycle_cases h with ⟨hrst, -⟩ | ⟨-, u, hf, hx⟩
  · exact absurd (hr.symm.trans hrst) (by decide)
  · obtain ⟨hinit, hcap⟩ := edgeF_keeps_control hf hnc
    obtain ⟨-, hregs, -⟩ := edgeX_frame hx
    exact ⟨hregs.initialized.trans hinit, hregs.capacity.trans hcap⟩

end Sys2Proof.Machine
end

section
/-!
Proofs for the step (spec/70_reset_and_hazards.md section 3): every command and every step completes (R71, R148), what a step does
with a command presented on port F (R137), and the two choices of the model's own about an absent port X and a used-up schedule.
-/
namespace Sys2Proof.Machine

/-! ## Every command and every step completes (R71, R148) -/

/-- Settles O9: every command has a next state, which keeps what no command touches. -/
theorem everyCommandCompletes : Obligations.EveryCommandCompletes := by
  intro i s
  obtain ⟨t, ht⟩ := exec_answers i s
  obtain ⟨hinst, hinputs, hother, hvalid⟩ := exec_keeps ht
  exact ⟨t, ht, hvalid, hother, hinst, hinputs⟩

theorem cycle_answers (inp : CycleInput) (s : State) :
    ∃ t, cycle inp s = .next t ∧ t.inst = s.inst ∧ t.inputs = s.inputs := by
  cases hr : inp.rst with
  | true => exact ⟨_, cycle_of_rst hr s, resetEdge_inst s, resetEdge_inputs s⟩
  | false =>
    obtain ⟨u, hu, huinst, huinputs, -⟩ := edgeF_answers inp s
    obtain ⟨t, ht, htinst, htinputs, -⟩ := edgeX_answers inp u
    exact ⟨t, cycle_of_parts hr hu ht, htinst.trans huinst, htinputs.trans huinputs⟩

/-- Settles O8: the cycle has a next state, and its input is the head of the schedule. -/
theorem everyStepHasANextState : Obligations.EveryStepHasANextState := fun s =>
  cycle_answers (currentInput s) (consumeInput s)

/-! ## The command presented on port F (R104, R137) -/

theorem acceptedX_of_absent {c : Instance} (h : c.xport = false) (inp : CycleInput) : acceptedX c inp = false := by
  simp [acceptedX, h]

theorem noResponseX_of_absent {s : State} (h : s.inst.xport = false) : noResponseX s = s := if_neg (by simp [h])

theorem noResponseX_of_present {s : State} (h : s.inst.xport = true) : noResponseX s = noResponse .x s := if_pos h

/-- A step in which port F presents a command runs it, and then does port X's part of the edge. -/
theorem step_of_f_valid {s t : State} {inp : CycleInput} {rest : List CycleInput} (hin : s.inputs = inp :: rest)
    (hr : inp.rst = false) (hv : inp.f.valid = true)
    (he : exec (decodeF s.inst.dw inp.f.cmd) (s.setInputs rest) = .next t) :
    step s = edgeX inp t ∧ t.inst = s.inst := by
  have hf : edgeF inp (s.setInputs rest) = .next t :=
    (edgeF_of_accepted ((acceptedF_iff inp).mpr ⟨hr, hv⟩) _).trans he
  exact ⟨(step_of_inputs hin).trans (cycle_of_edgeF hr hf), edgeF_inst (s := s.setInputs rest) hf⟩

/-- Settles O5: port X's part runs its command where that is accepted, and otherwise withdraws its response. -/
theorem stepRunsTheCommandOnPortF : Obligations.StepRunsTheCommandOnPortF := by
  rintro s t inp rest i hin hr hv rfl he
  obtain ⟨hstep, hinst⟩ := step_of_f_valid hin hr hv he
  rw [hstep, ← hinst]
  refine ⟨fun hp => ?_, fun hp hx => ?_, fun hp _ hready => ?_, fun hp hx hready => ?_⟩
  · rw [edgeX_of_not_accepted (acceptedX_of_absent hp inp), noResponseX_of_absent hp]
  · rw [edgeX_of_not_valid hx, noResponseX_of_present hp]
  · rw [edgeX_of_not_accepted (acceptedX_of_stalled _ hready), noResponseX_of_present hp]
  · exact edgeX_of_accepted ((acceptedX_iff _ _).mpr ⟨hp, hr, hx, hready⟩)

/-- A `wdata` that fits two element widths is the same command for both. -/
theorem decodeF_of_fits {dw dw' : Nat} {c : Command} (h : c.wdata < 2 ^ dw) (h' : c.wdata < 2 ^ dw') :
    decodeF dw c = decodeF dw' c := by
  rw [decodeF, decodeF, Nat.mod_eq_of_lt h, Nat.mod_eq_of_lt h']

theorem decodeTableWord_eq_some {nbits w : Nat} {i : Instr} (h : decodeTableWord nbits w = some i) :
    i = decodeF 8 (commandOfWord 8 (w % 2 ^ nbits)) := by
  rw [decodeTableWord] at h
  split at h
  case h_1 hdec => exact (Option.some.inj h).symm.trans (decode_eq_ok hdec)
  case h_2 => cases h

/-- Elements have at least the 8 bits that they have in the table's words (R7). -/
theorem decodeF_tableCommand {c : Instance} (hc : c.Wf) (w : Nat) :
    decodeF c.dw (commandOfWord 8 w) = decodeF 8 (commandOfWord 8 w) := by
  obtain ⟨hew, -⟩ := hc
  have hdw : 8 ≤ c.dw := by rw [Instance.dw]; omega
  have hlt : (commandOfWord 8 w).wdata < 2 ^ 8 := Nat.mod_lt w (by decide)
  exact decodeF_of_fits (hlt.trans_le (Nat.pow_le_pow_right (by decide) hdw)) hlt

/-- Settles O6: the word is presented on port F, and port X presents nothing. -/
theorem fetchedWordRuns : Obligations.FetchedWordRuns := by
  intro s t nbits w i hc hi he
  rw [decodeTableWord_eq_some hi, ← decodeF_tableCommand hc] at he
  obtain ⟨hstep, -⟩ := step_of_f_valid (s := s.withFetchWord nbits w) rfl rfl rfl he
  exact hstep.trans (edgeX_of_not_valid rfl t)

/-! ## Two choices of the model's own -/

/-- Port F's part of an edge does not touch port X's response registers. -/
theorem edgeF_xRsp {inp : CycleInput} {s u : State} (h : edgeF inp s = .next u) : u.xRsp = s.xRsp := by
  obtain ⟨u', hu', -, -, hrsp, -⟩ := edgeF_answers inp s
  exact next_injective (h.symm.trans hu') ▸ hrsp

/-- Settles O55: a reset edge withdraws port X's response only where there is one, and port X's part of any other edge then accepts
nothing. -/
theorem absentPortXIsUntouched : Obligations.AbsentPortXIsUntouched := by
  intro s t hp h
  rcases cycle_cases h with ⟨-, rfl⟩ | ⟨-, u, hf, hx⟩
  · exact (noResponseX_xRsp (noResponse .f (consumeInput s).uninitialize)).2 hp
  · have hup : u.inst.xport = false := edgeF_inst hf ▸ hp
    rw [edgeX_of_not_accepted (acceptedX_of_absent hup _), noResponseX_of_absent hup] at hx
    exact next_injective hx ▸ edgeF_xRsp (s := consumeInput s) hf

/-- Where nothing is scheduled a step is the cycle with nothing presented. -/
theorem step_of_no_inputs {s : State} (hin : s.inputs = []) :
    step s = .next (noResponseX (noResponse .f (s.setInputs []))) := by
  have hstep : step s = cycle idleInput (s.setInputs []) := by simp [step, currentInput, consumeInput, hin]
  exact hstep.trans (cycle_of_idle rfl rfl (by simp [acceptedX, idleInput, idlePins]))

/-- Settles O56: both responses are withdrawn and the buffer is the same. -/
theorem exhaustedScheduleIsIdle : Obligations.ExhaustedScheduleIsIdle := by
  intro s hin
  obtain ⟨hregs, hstorage⟩ := noResponses_sameBuffer s []
  exact ⟨_, step_of_no_inputs hin, hregs, fun i => by rw [hstorage], by simp,
    fun hp => (noResponseX_xRsp _).1 (by simpa using hp), by simp, by simp⟩

end Sys2Proof.Machine
end

section
/-!
Proofs for spec/20_memory.md: a slot reads as what was last written to it (R36, R37, R46), also after its element was dequeued (R42);
the byte layout (R39).
-/
namespace Sys2Proof.Machine

/-! ## Reading a written slot (R36, R37, R42, R46) -/

/-- READ_AT of a written slot, on either port. -/
theorem repliesWith_readAt {i : Instr} {s : State} {idx : Reg16} {v : Element} (hw : i = .readAt idx ∨ i = .xReadAt idx)
    (hi : s.initialized = true) (hr : idx.toNat < s.capacity.toNat) (hv : s.storage.read idx.toNat = some v) :
    RepliesWith i s .ok v :=
  ⟨_, exec_readAt_ok hw hi hr, respond_answers rfl rfl rfl, by rw [respond_rsp]; exact memRead_of_some hv⟩

/-- After a WRITE_AT on port `p`, either port reads the value written. -/
theorem repliesWith_readAt_writeAtOk {i : Instr} {s : State} {idx : Reg16} (hw : i = .readAt idx ∨ i = .xReadAt idx)
    (hi : s.initialized = true) (hr : idx.toNat < s.capacity.toNat) (p : Port) (v : Element) :
    RepliesWith i (writeAtOk p idx v s) .ok v := by
  obtain ⟨hinit, hcap, -⟩ := writeAtOk_sameRegisters p idx v s
  refine repliesWith_readAt hw (hinit.trans hi) (hcap.symm ▸ hr) ?_
  rw [writeAtOk_storage]
  exact Memory.read_write_same ..

/-- Settles O19: WRITE_AT on either port stores the value, which READ_AT on either port reads. -/
theorem writeIsVisibleToTheNextRead : Obligations.WriteIsVisibleToTheNextRead := fun _ _ v hi hr =>
  ⟨_, exec_writeAt_ok (.inl rfl) hi hr, repliesWith_readAt_writeAtOk (.inl rfl) hi hr .f v,
    repliesWith_readAt_writeAtOk (.inr rfl) hi hr .f v,
    _, exec_writeAt_ok (.inr rfl) hi hr, repliesWith_readAt_writeAtOk (.inl rfl) hi hr .x v,
    repliesWith_readAt_writeAtOk (.inr rfl) hi hr .x v⟩

/-- The slot that DEQUEUE reads from a buffer with an element has been written. -/
theorem OccupiedInv.exists_read_dequeueIndex {s : State} (h : OccupiedInv s) (hpos : 0 < s.count.toNat)
    (hrc : s.readCursor.toNat < s.capacity.toNat) : ∃ v, s.storage.read (dequeueIndex s).toNat = some v := by
  have hslot := h 0 hpos
  rw [Nat.add_zero, Nat.mod_eq_of_lt hrc] at hslot
  exact Option.isSome_iff_exists.mp hslot

/-- Settles O20: DEQUEUE reads a written slot and writes none. -/
theorem dequeuedSlotKeepsItsValue : Obligations.DequeuedSlotKeepsItsValue := by
  rintro s ⟨-, hb, -, ho, -⟩ hi hcount
  obtain ⟨-, -, -, hrc, -⟩ := hb.1 hi
  have he : isEmpty s = false := Bool.eq_false_iff.mpr fun he => hcount ((hb.isEmpty_iff hi).mp he)
  obtain ⟨v, hv⟩ := ho.exists_read_dequeueIndex (hb.count_pos_of_not_empty hi he) hrc
  exact ⟨dequeueOk s, v, exec_dequeue_ok hi he, memRead_of_some hv, rfl,
    repliesWith_readAt (s := dequeueOk s) (.inl rfl) hi hrc hv⟩

/-! ## The byte layout (R39) -/

/-- Byte `b` of `v` is the byte with the bits `[8b+7 : 8b]` of `v`. -/
theorem eq_elementByte_iff (x : BitVec 8) (v : Element) (b : Nat) :
    x = elementByte v b ↔ ∀ k : Nat, k < 8 → x.getLsbD k = v.testBit (8 * b + k) := by
  have hbit : ∀ k < 8, (elementByte v b).getLsbD k = v.testBit (8 * b + k) := fun k hk => by
    rw [elementByte, BitVec.getLsbD_ofNat, Nat.testBit_div_two_pow, decide_eq_true hk, Bool.true_and, Nat.add_comm]
  constructor
  · rintro rfl
    exact hbit
  · exact fun h => BitVec.eq_of_getLsbD_eq fun k hk => (h k hk).trans (hbit k hk).symm

theorem mem_byteLayout_iff {ew : Nat} {m : Memory} {a : Nat} {x : BitVec 8} : (a, x) ∈ byteLayout ew m ↔
    ∃ (i b : Nat) (v : Element), (i, v) ∈ m ∧ b < ew ∧ a = i * ew + b ∧ x = elementByte v b := by
  simp only [byteLayout, slotBytes, List.mem_flatMap, List.mem_map, List.mem_range, Prod.mk.injEq, Prod.exists]
  constructor
  · rintro ⟨i, v, hmem, b, hb, rfl, rfl⟩
    exact ⟨i, b, v, hmem, hb, rfl, rfl⟩
  · rintro ⟨i, b, v, hmem, hb, rfl, rfl⟩
    exact ⟨i, v, hmem, b, hb, rfl, rfl⟩

/-- In canonical storage the listed pairs are what the slots read as. -/
theorem Memory.read_eq_some_iff {m : Memory} (hm : Memory.wf m = true) {i : Nat} {v : Element} :
    m.read i = some v ↔ (i, v) ∈ m := ⟨Memory.mem_of_read, Memory.read_of_mem hm⟩

/-- Settles O21: the layout draws the bytes of each listed pair, bit by bit. -/
theorem byteLayoutIsLittleEndian : Obligations.ByteLayoutIsLittleEndian := by
  intro ew m a x hm
  simp only [mem_byteLayout_iff, Memory.read_eq_some_iff hm, eq_elementByte_iff]

end Sys2Proof.Machine
end

section
/-!
Proofs for spec/70_reset_and_hazards.md section 2: what a fresh controller answers (R135), read off the causes of R116.
-/
namespace Sys2Proof.Machine

theorem replies_expected (i : Instr) (s : State) : Replies i s (expectedStatus i s) := by
  obtain ⟨t, ht⟩ := exec_answers i s
  exact ⟨t, ht, exec_answers_expected ht⟩

/-- Right after reset, and after a CREATE that was refused there, the controller is not initialized. -/
theorem boot_uninitialized {c : Instance} {s : State} (h : s = State.resetOf c ∨
    ∃ bad : Reg16, (bad.toNat = 0 ∨ c.depth < bad.toNat) ∧ exec (.create bad) (State.resetOf c) = .next s) :
    s.initialized = false ∧ s.inst = c := by
  rcases h with rfl | ⟨bad, hbad, he⟩
  · exact ⟨rfl, rfl⟩
  · obtain rfl := exec_unique he (exec_create_refused hbad)
    exact ⟨rfl, rfl⟩

/-- The commands that need a buffer (R119). -/
theorem replies_notInitialized_of_needsBuffer {i : Instr} {s : State} (hs : s.initialized = false)
    (hi : (∃ v : Element, i = .enqueue v) ∨ i = .dequeue ∨
      (∃ (idx : Reg16) (v : Element), i = .writeAt idx v ∨ i = .xWriteAt idx v) ∨
      (∃ idx : Reg16, i = .readAt idx ∨ i = .xReadAt idx) ∨ i = .isEmpty ∨ i = .isFull) :
    Replies i s .notInitialized := by
  have hst : expectedStatus i s = .notInitialized := by
    rcases hi with ⟨v, rfl⟩ | rfl | ⟨idx, v, rfl | rfl⟩ | ⟨idx, rfl | rfl⟩ | rfl | rfl <;> exact if_pos hs
  exact hst ▸ replies_expected i s

theorem replies_create_refused {s : State} {bad : Reg16} (h : bad.toNat = 0 ∨ s.inst.depth < bad.toNat) :
    Replies (.create bad) s .allocationFailed :=
  ⟨_, exec_create_refused h, respondNoData_answers rfl rfl rfl⟩

/-- A CREATE of a legal capacity leaves an initialized buffer with room for an element. -/
theorem create_then_enqueue (s : State) {cap : Reg16} (v : Element) (h1 : 1 ≤ cap.toNat) (hd : cap.toNat ≤ s.inst.depth) :
    ∃ t, exec (.create cap) s = .next t ∧ Answers .f .ok s t ∧ initializedPin t = true ∧ Replies (.enqueue v) t .ok := by
  have h0 : cap.toNat ≠ 0 := by omega
  have hholds := (holds_newBuffer s h0 hd).after_respond .f .ok (unspecifiedData (s.newBuffer true cap))
  obtain ⟨henqueue, -⟩ := hholds.enqueue_of_room h1 v
  exact ⟨_, exec_create_fits h0 hd, respondNoData_answers rfl rfl rfl, rfl, _, henqueue, enqueueOk_answers ..⟩

/-- Settles O53: in an uninitialized controller each command but CREATE has one cause in R116, and CREATE's depends on `DEPTH`. -/
theorem bootSequence : Obligations.BootSequence := by
  intro c s hs
  obtain ⟨huninit, rfl⟩ := boot_uninitialized hs
  refine ⟨fun i hi => replies_notInitialized_of_needsBuffer huninit hi, fun i hi => ?_, replies_expected .nop s,
    replies_expected .xNop s, fun bad => replies_create_refused, fun cap v => create_then_enqueue s v⟩
  obtain ⟨t, ht, hfails⟩ := illegalCommandsOnlyAnswer.2 s i hi
  exact ⟨t, ht, hfails.answers⟩

end Sys2Proof.Machine
end

section
/-!
Proofs for spec/44_arbiter.md section 5: a run of cycles equals the one sequence of its accepted commands (R113). The run and the
sequence are at every cycle in states that agree on the buffer and the parameters; each command then leaves such states again, and
is answered alike up to unspecified data.
-/
namespace Sys2Proof.Machine

/-! ## States with the same buffer and parameters -/

/-- `s` and `t` agree on the tuple of R13 and on the parameters; their response registers, free values and inputs may
differ. -/
structure SameUnit (s t : State) : Prop where
  registers : SameRegisters s t
  storage   : t.storage = s.storage
  inst      : t.inst = s.inst

theorem SameUnit.symm {s t : State} (h : SameUnit s t) : SameUnit t s :=
  ⟨sameRegisters_of_common h.registers (sameBuffer_refl s).registers, h.storage.symm, h.inst.symm⟩

theorem SameUnit.trans {s t u : State} (h : SameUnit s t) (h' : SameUnit t u) : SameUnit s u :=
  ⟨sameRegisters_of_common h.symm.registers h'.registers, h'.storage.trans h.storage, h'.inst.trans h.inst⟩

theorem respond_sameUnit (p : Port) (st : Status) (d : Element) (s : State) : SameUnit s (respond p st d s) :=
  ⟨respond_sameRegisters .., respond_storage .., respond_inst ..⟩

theorem noResponse_sameUnit (p : Port) (s : State) : SameUnit s (noResponse p s) :=
  ⟨noResponse_sameRegisters .., noResponse_storage .., noResponse_inst ..⟩

theorem noResponseX_sameUnit (s : State) : SameUnit s (noResponseX s) :=
  ⟨noResponseX_sameRegisters s, noResponseX_storage s, noResponseX_inst s⟩

theorem setInputs_sameUnit (s : State) (is : List CycleInput) : SameUnit s (s.setInputs is) :=
  ⟨setInputs_sameRegisters s is, rfl, rfl⟩

section
variable {s s' : State} (h : SameUnit s s')
include h

theorem SameUnit.bufferInv (hb : BufferInv s) : BufferInv s' := hb.of_sameRegisters h.registers h.inst

theorem SameUnit.respond_congr (p : Port) (st : Status) (d d' : Element) :
    SameUnit (respond p st d s) (respond p st d' s') :=
  (respond_sameUnit p st d s).symm.trans (h.trans (respond_sameUnit p st d' s'))

theorem SameUnit.newBuffer_congr (i : Bool) (cap : Reg16) : SameUnit (s.newBuffer i cap) (s'.newBuffer i cap) :=
  ⟨⟨rfl, rfl, rfl, rfl, rfl⟩, rfl, h.inst⟩

theorem SameUnit.memWrite_congr (idx : Reg16) (v : Element) : SameUnit (memWrite s idx v) (memWrite s' idx v) := by
  obtain ⟨⟨hinit, hcap, hwc, hrc, hcount⟩, hmem, hinst⟩ := h
  exact ⟨⟨hinit, hcap, hwc, hrc, hcount⟩, by simp [hmem], hinst⟩

/-- A cursor below `capacity` advances without a free value. -/
theorem SameUnit.nextCursor_congr {c : Reg16} (hc : c.toNat < s.capacity.toNat) : nextCursor s' c = nextCursor s c := by
  have hcap := h.registers.capacity
  rw [nextCursor_eq_incMod hc, nextCursor_eq_incMod (hcap.symm ▸ hc), hcap]

theorem SameUnit.isFull_eq : isFull s' = isFull s := h.registers.isFull_eq

theorem SameUnit.isEmpty_eq : isEmpty s' = isEmpty s := h.registers.isEmpty_eq

theorem SameUnit.countUp_congr (hb : BufferInv s) (hi : s.initialized = true) (hf : isFull s = false) :
    countUp s' = countUp s := by
  have hup' := (h.bufferInv hb).countUp_of_not_full (h.registers.initialized.trans hi) (h.isFull_eq.trans hf)
  apply BitVec.eq_of_toNat_eq
  rw [hup', h.registers.count, hb.countUp_of_not_full hi hf]

theorem SameUnit.countDown_congr (hb : BufferInv s) (hi : s.initialized = true) (he : isEmpty s = false) :
    countDown s' = countDown s := by
  have hdown := hb.countDown_of_not_empty hi he
  have hdown' := (h.bufferInv hb).countDown_of_not_empty (h.registers.initialized.trans hi) (h.isEmpty_eq.trans he)
  rw [h.registers.count] at hdown'
  exact BitVec.eq_of_toNat_eq (by omega)

theorem SameUnit.pushElement_congr (hb : BufferInv s) (hi : s.initialized = true) (hf : isFull s = false) (v : Element) :
    SameUnit (pushElement v s) (pushElement v s') := by
  obtain ⟨-, -, hwlt, -⟩ := hb.1 hi
  have hnext := h.nextCursor_congr hwlt
  have hup := h.countUp_congr hb hi hf
  obtain ⟨⟨hinit, hcap, hwc, hrc, -⟩, hmem, hinst⟩ := h
  exact ⟨⟨hinit, hcap, by simp [hwc, hnext], hrc, hup⟩, by simp [enqueueIndex, hmem, hwc], hinst⟩

theorem SameUnit.popElement_congr (hb : BufferInv s) (hi : s.initialized = true) (he : isEmpty s = false) :
    SameUnit (popElement s) (popElement s') := by
  obtain ⟨-, -, -, hrlt, -⟩ := hb.1 hi
  have hnext := h.nextCursor_congr hrlt
  have hdown := h.countDown_congr hb hi he
  obtain ⟨⟨hinit, hcap, hwc, hrc, -⟩, hmem, hinst⟩ := h
  exact ⟨⟨hinit, hcap, hwc, by simp [hrc, hnext], hdown⟩, hmem, hinst⟩

/-! ## One command in two such states -/

theorem SameUnit.expectedStatus_eq (i : Instr) : expectedStatus i s' = expectedStatus i s := by
  obtain ⟨⟨hinit, hcap, hwc, hrc, hcount⟩, -, hinst⟩ := h
  simp only [expectedStatus, hinit, hcap, hwc, hrc, hcount, hinst]

theorem SameUnit.promisedData_eq (i : Instr) : promisedData i s' = promisedData i s := by
  have hst := h.expectedStatus_eq i
  obtain ⟨⟨-, hcap, hwc, hrc, hcount⟩, hmem, -⟩ := h
  simp only [promisedData, dequeueIndex, hst, hcap, hwc, hrc, hcount, hmem]

end

/-- A command that fails, and one that is none of CREATE, ENQUEUE, DEQUEUE and WRITE_AT, leaves the buffer as it is. -/
theorem exec_sameUnit {i : Instr} {s t : State} (ht : exec i s = .next t) (hnc : isCreate i = false)
    (hquiet : expectedStatus i s ≠ .ok ∨ (isWriteAt i = false ∧ (∀ v : Element, i ≠ .enqueue v) ∧ i ≠ .dequeue)) :
    SameUnit s t := by
  cases exec_ends ht with
  | failed | answered => exact respond_sameUnit ..
  | pushed v _ _ hok =>
    obtain ⟨-, hne, -⟩ := hquiet.resolve_left (not_not_intro hok)
    exact absurd rfl (hne v)
  | popped _ _ hok =>
    obtain ⟨-, -, hnd⟩ := hquiet.resolve_left (not_not_intro hok)
    exact absurd rfl hnd
  | stored idx v _ _ hw hok =>
    obtain ⟨hnw, -⟩ := hquiet.resolve_left (not_not_intro hok)
    rcases hw with rfl | rfl <;> cases hnw
  | created | refused => cases hnc

/-- A command leaves states that agree where it starts in states that agree. -/
theorem SameUnit.after_exec {i : Instr} {s s' t t' : State} (h : SameUnit s s') (hb : BufferInv s)
    (ht : exec i s = .next t) (ht' : exec i s' = .next t') : SameUnit t t' := by
  have hinit := h.registers.initialized
  cases exec_ends ht with
  | failed st herr hst hnc =>
    have herr' : expectedStatus i s' ≠ .ok := by rw [h.expectedStatus_eq, hst]; exact herr
    exact (respond_sameUnit ..).symm.trans (h.trans (exec_sameUnit ht' hnc (.inl herr')))
  | answered d _ hnc hnw hne hnd =>
    exact (respond_sameUnit ..).symm.trans (h.trans (exec_sameUnit ht' hnc (.inr ⟨hnw, hne, hnd⟩)))
  | pushed v hi hf =>
    obtain rfl := exec_unique ht' (exec_enqueue_ok (hinit.trans hi) (h.isFull_eq.trans hf) v)
    exact (h.pushElement_congr hb hi hf v).respond_congr ..
  | popped hi he =>
    obtain rfl := exec_unique ht' (exec_dequeue_ok (hinit.trans hi) (h.isEmpty_eq.trans he))
    exact (h.popElement_congr hb hi he).respond_congr ..
  | stored idx v hi hr hw =>
    obtain rfl := exec_unique ht' (exec_writeAt_ok hw (hinit.trans hi) (h.registers.capacity.symm ▸ hr))
    exact (h.memWrite_congr _ v).respond_congr ..
  | created cap h0 hd =>
    obtain rfl := exec_unique ht' (exec_create_fits h0 (h.inst.symm ▸ hd))
    exact (h.newBuffer_congr true cap).respond_congr ..
  | refused cap hbad =>
    obtain rfl := exec_unique ht' (exec_create_refused (h.inst.symm ▸ hbad))
    exact (h.newBuffer_congr false 0).respond_congr ..

/-! ## Responses that fit a sequence of commands -/

/-- `rs` are the responses that the commands `is` get from state `s`, up to unspecified data. -/
structure Fits (is : List Instr) (s : State) (rs : List Response) : Prop where
  status   : rs.map (·.status) = statuses is s
  promised : List.Forall₂ CarriesPromise (promises is s) rs

theorem fits_nil (s : State) : Fits [] s [] := ⟨rfl, .nil⟩

theorem Fits.cons {i : Instr} {is : List Instr} {s t : State} {r : Response} {rs : List Response} (ht : exec i s = .next t)
    (hst : r.status = (t.rsp i.port).status) (hdata : CarriesPromise (promisedData i s) r) (h : Fits is t rs) :
    Fits (i :: is) s (r :: rs) where
  status := by rw [List.map_cons, statuses_cons ht, h.status, hst]
  promised := by rw [promises_cons ht]; exact .cons hdata h.promised

theorem promises_append {is js : List Instr} {s t : State} (h : execAll is s = .next t) :
    promises (is ++ js) s = promises is s ++ promises js t := by
  induction is generalizing s with
  | nil => rw [next_injective h]; rfl
  | cons i is ih =>
    obtain ⟨u, hu⟩ := exec_answers i s
    rw [execAll_cons, hu, andThen_next] at h
    rw [List.cons_append, promises_cons hu, promises_cons hu, ih h, List.cons_append]

theorem Fits.append {is js : List Instr} {s t : State} {rs rs' : List Response} (ht : execAll is s = .next t)
    (h : Fits is s rs) (h' : Fits js t rs') : Fits (is ++ js) s (rs ++ rs') where
  status := by rw [List.map_append, statuses_append ht, h.status, h'.status]
  promised := by rw [promises_append ht]; exact List.rel_append h.promised h'.promised

/-- A sequence's own responses fit it (R64). -/
theorem responses_fits (is : List Instr) (s : State) : Fits is s (responses is s) := by
  induction is generalizing s with
  | nil => exact fits_nil s
  | cons i is ih =>
    obtain ⟨t, ht⟩ := exec_answers i s
    rw [responses_cons ht]
    exact (ih t).cons ht rfl (exec_carriesPromise ht)

/-! ## A run and its commands (R113) -/

/-- From `s` the commands `is` leave the buffer of `t` and get the responses `rs`, up to unspecified data. -/
def Serialises (is : List Instr) (s t : State) (rs : List Response) : Prop :=
  ∃ u, execAll is s = .next u ∧ SameUnit t u ∧ Fits is s rs

theorem serialises_nil {s t : State} (h : SameUnit t s) : Serialises [] s t [] := ⟨s, rfl, h, fits_nil s⟩

theorem Serialises.append {is js : List Instr} {s t t' : State} {rs rs' : List Response} (h : Serialises is s t rs)
    (h' : ∀ u, SameUnit t u → Serialises js u t' rs') : Serialises (is ++ js) s t' (rs ++ rs') := by
  obtain ⟨u, hu, hsame, hfits⟩ := h
  obtain ⟨u', hu', hsame', hfits'⟩ := h' u hsame
  exact ⟨u', by rw [execAll_append, hu, andThen_next, hu'], hsame', hfits.append hu hfits'⟩

/-- One accepted command. -/
theorem SameUnit.serialises_exec {i : Instr} {s s' t : State} (h : SameUnit s s') (hb : BufferInv s)
    (ht : exec i s = .next t) : Serialises [i] s' t [t.rsp i.port] := by
  obtain ⟨t', ht'⟩ := exec_answers i s'
  have hst : (t.rsp i.port).status = (t'.rsp i.port).status := by
    rw [(exec_answers_expected ht).status, (exec_answers_expected ht').status, h.expectedStatus_eq]
  have hdata : CarriesPromise (promisedData i s') (t.rsp i.port) := h.promisedData_eq i ▸ exec_carriesPromise ht
  exact ⟨t', by rw [execAll_cons, ht', andThen_next, execAll_nil], h.after_exec hb ht ht',
    (fits_nil t').cons ht' hst hdata⟩

/-- Port F's part of an edge. -/
theorem SameUnit.serialises_edgeF {inp : CycleInput} {s s' u : State} (h : SameUnit s s') (hb : BufferInv s)
    (he : edgeF inp s = .next u) :
    Serialises (if acceptedF inp then [decodeF s.inst.dw inp.f.cmd] else []) s' u
      (if u.fRsp.valid then [u.fRsp] else []) := by
  obtain ⟨hexec, hidle⟩ := edgeF_eq_next_iff.mp he
  rw [edgeF_fRsp_valid he]
  cases ha : acceptedF inp with
  | true =>
    have hrun := h.serialises_exec hb (hexec ha)
    rwa [decodeF_port] at hrun
  | false => exact serialises_nil (hidle ha ▸ (noResponse_sameUnit .f s).symm.trans h)

/-- Port X's part of an edge. -/
theorem SameUnit.serialises_edgeX {inp : CycleInput} {u u' t : State} (h : SameUnit u u') (hb : BufferInv u)
    (he : edgeX inp u = .next t) :
    Serialises (if acceptedX u.inst inp then [decodeX u.inst.dw inp.x.cmd] else []) u' t
      (if u.inst.xport && t.xRsp.valid then [t.xRsp] else []) := by
  obtain ⟨hexec, hidle⟩ := edgeX_eq_next_iff.mp he
  have hshown : (u.inst.xport && t.xRsp.valid) = acceptedX u.inst inp := by
    cases hp : u.inst.xport with
    | true => exact edgeX_xRsp_valid he hp
    | false => exact (acceptedX_of_absent hp inp).symm
  rw [hshown]
  cases ha : acceptedX u.inst inp with
  | true =>
    have hrun := h.serialises_exec hb (hexec ha)
    rwa [decodeX_port] at hrun
  | false => exact serialises_nil (hidle ha ▸ (noResponseX_sameUnit u).symm.trans h)

theorem BufferInv.after_edgeF {inp : CycleInput} {s u : State} (hb : BufferInv s) (he : edgeF inp s = .next u) :
    BufferInv u := by
  obtain ⟨hexec, hidle⟩ := edgeF_eq_next_iff.mp he
  cases ha : acceptedF inp with
  | true => exact hb.after_exec (hexec ha)
  | false => exact hidle ha ▸ hb.after_noResponse .f

/-- One cycle: the accepted F command, then the accepted X command (R104). -/
theorem SameUnit.serialises_cycle {inp : CycleInput} {s s' t : State} (h : SameUnit s s') (hb : BufferInv s)
    (hr : inp.rst = false) (hc : cycle inp s = .next t) :
    Serialises (acceptedIn s.inst inp) s' t (shownBy t) := by
  rcases cycle_cases hc with ⟨hrst, -⟩ | ⟨-, u, hf, hx⟩
  · exact absurd (hr.symm.trans hrst) (by decide)
  · have huinst := edgeF_inst hf
    obtain ⟨t', ht', htinst, -⟩ := edgeX_answers inp u
    obtain rfl := next_injective (hx.symm.trans ht')
    rw [acceptedIn, shownBy, edgeX_fRsp hx, htinst, ← huinst]
    refine Serialises.append ?_ fun u' hu' => hu'.serialises_edgeX (hb.after_edgeF hf) hx
    rw [huinst]
    exact h.serialises_edgeF hb hf

/-- A run without reset, by induction on its cycles. -/
theorem SameUnit.serialises_run {inputs : List CycleInput} {s s' t : State} (h : SameUnit s s') (hb : BufferInv s)
    (hin : s.inputs = inputs) (hr : ∀ inp ∈ inputs, inp.rst = false) (hrun : runCycles inputs.length s = .next t) :
    Serialises (serialised s.inst inputs) s' t (shownResponses inputs.length s) := by
  induction inputs generalizing s s' with
  | nil => exact serialises_nil (next_injective hrun ▸ h)
  | cons inp rest ih =>
    obtain ⟨hrst, hrest⟩ := List.forall_mem_cons.mp hr
    obtain ⟨u, hu, hinst, hinputs⟩ := everyStepHasANextState s
    have hcycle : cycle inp (s.setInputs rest) = .next u := (step_of_inputs hin).symm.trans hu
    have hhead := ((setInputs_sameUnit s rest).symm.trans h).serialises_cycle (hb.after_setInputs rest) hrst hcycle
    rw [List.length_cons, runCycles_succ hu] at hrun
    rw [List.length_cons, shownResponses_succ hu, serialised, List.flatMap_cons]
    refine hhead.append fun u' hu' => ?_
    have htail := ih hu' (hb.after_step hu) (hinputs.trans (by rw [hin]; rfl)) hrest hrun
    rwa [hinst] at htail

/-- Settles O46: the run's responses fit its serialisation, and so do the serialisation's own. -/
theorem runEqualsItsSerialisation : Obligations.RunEqualsItsSerialisation := by
  intro s t inputs hb hr hrun
  obtain ⟨u, hu, hsame, hfits⟩ :=
    (setInputs_sameUnit s inputs).symm.serialises_run (hb.after_setInputs inputs) rfl hr hrun
  have hbuffer := hsame.symm
  exact ⟨⟨u, hu, hbuffer.registers, hbuffer.storage⟩, hfits.status, hfits.promised, (responses_fits _ s).promised⟩

end Sys2Proof.Machine
end
